-- ==== Sys2Proof/Word.lean ====
section
/-! DEFINITION. The two word types of the core: `XLEN` = 8 and `ALEN` = 16 (00_scope.md R7). -/

namespace Sys2Proof

/-- A datum: a general register, a memory byte, an opcode byte (R7, `XLEN`). -/
abbrev Byte := BitVec 8

/-- `PC`, `SP`, a register pair, an address operand (R7, `ALEN`). -/
abbrev Word := BitVec 16

end Sys2Proof
end

