-- ==== Sys2Proof/Config.lean ====
section
/-! DEFINITION. The parameters of the core (00_scope.md R7) and the defaults the spec gives them.
`IMAGE` is an argument of reset (Machine/Ops.lean), `PC_RESET` is fixed at 0 (Machine/State.lean), and the opcode map
is the table of Decode.lean. Nothing else is configurable. -/

namespace Sys2Proof

/-- The straps of the core and the geometry its renderer uses (R7, 10_state.md R37). They never change while the
machine runs. -/
structure Config where
  /-- `MEM_SIZE`: valid addresses are `0 .. memSize-1` (R50). -/
  memSize : Nat
  /-- `SP_RESET`: `SP` after reset (R39). -/
  spReset : Word
  /-- `RENDER_PERIOD`: completed steps between two render yields (46_execution_loop.md R202). -/
  renderPeriod : Nat
  /-- `VIDEO_START`: first address of the video plane; read by the renderer alone (60_exceptions.md R232). -/
  videoStart : Word
  /-- `SCREEN_W`. -/
  screenW : Nat
  /-- `SCREEN_H`. -/
  screenH : Nat
  deriving DecidableEq, Repr

/-- The defaults of R7. `RENDER_PERIOD` has no default in the spec (decision D15): the smallest value of its range
stands here. DESIGN CHOICE, unsafe for a claim about when a run from reset yields; log 2. -/
def Config.default : Config where
  memSize := 65536
  spReset := 0xFFFE
  renderPeriod := 1
  videoStart := 0x8000
  screenW := 16
  screenH := 16

end Sys2Proof
end

