-- ==== Sys2Proof/Syntax.lean ====
section
/-! DEFINITION. The instructions: one constructor of `Instr` for each of the 96 rows of spec/opcode_table.json
(30_encoding.md R89), in the table's order. An operand that the opcode byte fixes (a register, a pair, a condition) is
part of the constructor's name; an operand byte is its argument. An unknown opcode (R92) is no instruction. -/

namespace Sys2Proof

/-- The seven general registers (10_state.md R21, R22), in the order of their codes (30_encoding.md R83). -/
inductive Reg where
  | b | c | d | e | h | l | a
  deriving DecidableEq, Repr

/-- The instruction set (R89, R91). -/
inductive Instr where
  /-- `NOP` (R185). -/
  | nop
  /-- `LD B,n` (R130). -/
  | ldB_n (n : Byte)
  /-- `LD C,n` (R130). -/
  | ldC_n (n : Byte)
  /-- `LD DE,nn` (R135). -/
  | ldDE_nn (nn : Word)
  /-- `LD D,n` (R130). -/
  | ldD_n (n : Byte)
  /-- `LD E,n` (R130). -/
  | ldE_n (n : Byte)
  /-- `LD HL,nn` (R134). -/
  | ldHL_nn (nn : Word)
  /-- `LD H,n` (R130). -/
  | ldH_n (n : Byte)
  /-- `LD L,n` (R130). -/
  | ldL_n (n : Byte)
  /-- `LD A,n` (R130). -/
  | ldA_n (n : Byte)
  /-- `LD B,B` (R131). -/
  | ldB_B
  /-- `LD B,C` (R131). -/
  | ldB_C
  /-- `LD B,D` (R131). -/
  | ldB_D
  /-- `LD B,E` (R131). -/
  | ldB_E
  /-- `LD B,H` (R131). -/
  | ldB_H
  /-- `LD B,L` (R131). -/
  | ldB_L
  /-- `LD B,(HL)` (R132). -/
  | ldB_mem
  /-- `LD B,A` (R131). -/
  | ldB_A
  /-- `LD C,B` (R131). -/
  | ldC_B
  /-- `LD C,C` (R131). -/
  | ldC_C
  /-- `LD C,D` (R131). -/
  | ldC_D
  /-- `LD C,E` (R131). -/
  | ldC_E
  /-- `LD C,H` (R131). -/
  | ldC_H
  /-- `LD C,L` (R131). -/
  | ldC_L
  /-- `LD C,(HL)` (R132). -/
  | ldC_mem
  /-- `LD C,A` (R131). -/
  | ldC_A
  /-- `LD D,B` (R131). -/
  | ldD_B
  /-- `LD D,C` (R131). -/
  | ldD_C
  /-- `LD D,D` (R131). -/
  | ldD_D
  /-- `LD D,E` (R131). -/
  | ldD_E
  /-- `LD D,H` (R131). -/
  | ldD_H
  /-- `LD D,L` (R131). -/
  | ldD_L
  /-- `LD D,(HL)` (R132). -/
  | ldD_mem
  /-- `LD D,A` (R131). -/
  | ldD_A
  /-- `LD E,B` (R131). -/
  | ldE_B
  /-- `LD E,C` (R131). -/
  | ldE_C
  /-- `LD E,D` (R131). -/
  | ldE_D
  /-- `LD E,E` (R131). -/
  | ldE_E
  /-- `LD E,H` (R131). -/
  | ldE_H
  /-- `LD E,L` (R131). -/
  | ldE_L
  /-- `LD E,(HL)` (R132). -/
  | ldE_mem
  /-- `LD E,A` (R131). -/
  | ldE_A
  /-- `LD H,B` (R131). -/
  | ldH_B
  /-- `LD H,C` (R131). -/
  | ldH_C
  /-- `LD H,D` (R131). -/
  | ldH_D
  /-- `LD H,E` (R131). -/
  | ldH_E
  /-- `LD H,H` (R131). -/
  | ldH_H
  /-- `LD H,L` (R131). -/
  | ldH_L
  /-- `LD H,(HL)` (R132). -/
  | ldH_mem
  /-- `LD H,A` (R131). -/
  | ldH_A
  /-- `LD L,B` (R131). -/
  | ldL_B
  /-- `LD L,C` (R131). -/
  | ldL_C
  /-- `LD L,D` (R131). -/
  | ldL_D
  /-- `LD L,E` (R131). -/
  | ldL_E
  /-- `LD L,H` (R131). -/
  | ldL_H
  /-- `LD L,L` (R131). -/
  | ldL_L
  /-- `LD L,(HL)` (R132). -/
  | ldL_mem
  /-- `LD L,A` (R131). -/
  | ldL_A
  /-- `LD (HL),B` (R133). -/
  | ldMem_B
  /-- `LD (HL),C` (R133). -/
  | ldMem_C
  /-- `LD (HL),D` (R133). -/
  | ldMem_D
  /-- `LD (HL),E` (R133). -/
  | ldMem_E
  /-- `LD (HL),H` (R133). -/
  | ldMem_H
  /-- `LD (HL),L` (R133). -/
  | ldMem_L
  /-- `HALT` (R186). -/
  | halt
  /-- `LD (HL),A` (R133). -/
  | ldMem_A
  /-- `LD A,B` (R131). -/
  | ldA_B
  /-- `LD A,C` (R131). -/
  | ldA_C
  /-- `LD A,D` (R131). -/
  | ldA_D
  /-- `LD A,E` (R131). -/
  | ldA_E
  /-- `LD A,H` (R131). -/
  | ldA_H
  /-- `LD A,L` (R131). -/
  | ldA_L
  /-- `LD A,(HL)` (R132). -/
  | ldA_mem
  /-- `LD A,A` (R131). -/
  | ldA_A
  /-- `ADD A,B` (R150). -/
  | addA_B
  /-- `ADD A,C` (R150). -/
  | addA_C
  /-- `ADD A,D` (R150). -/
  | addA_D
  /-- `ADD A,E` (R150). -/
  | addA_E
  /-- `ADD A,H` (R150). -/
  | addA_H
  /-- `ADD A,L` (R150). -/
  | addA_L
  /-- `ADD A,A` (R150). -/
  | addA_A
  /-- `CP B` (R151). -/
  | cp_B
  /-- `CP C` (R151). -/
  | cp_C
  /-- `CP D` (R151). -/
  | cp_D
  /-- `CP E` (R151). -/
  | cp_E
  /-- `CP H` (R151). -/
  | cp_H
  /-- `CP L` (R151). -/
  | cp_L
  /-- `CP A` (R151). -/
  | cp_A
  /-- `RET NZ` (R171). -/
  | retNZ
  /-- `JP NZ,nn` (R167). -/
  | jpNZ_nn (nn : Word)
  /-- `JP nn` (R165). -/
  | jp_nn (nn : Word)
  /-- `RET Z` (R170). -/
  | retZ
  /-- `RET` (R169). -/
  | ret
  /-- `JP Z,nn` (R166). -/
  | jpZ_nn (nn : Word)
  /-- `CALL nn` (R168). -/
  | call_nn (nn : Word)
  /-- `CP n` (R152). -/
  | cp_n (n : Byte)
  deriving DecidableEq, Repr

/-! The forms of R89 that range over registers, so that a rule about a form can be said once. -/

/-- `LD r,n` (R130). -/
def Instr.ldImm : Reg → Byte → Instr
  | .b, n => .ldB_n n
  | .c, n => .ldC_n n
  | .d, n => .ldD_n n
  | .e, n => .ldE_n n
  | .h, n => .ldH_n n
  | .l, n => .ldL_n n
  | .a, n => .ldA_n n

/-- `LD r,r'` (R131): destination first. -/
def Instr.ldReg : Reg → Reg → Instr
  | .b, .b => .ldB_B
  | .b, .c => .ldB_C
  | .b, .d => .ldB_D
  | .b, .e => .ldB_E
  | .b, .h => .ldB_H
  | .b, .l => .ldB_L
  | .b, .a => .ldB_A
  | .c, .b => .ldC_B
  | .c, .c => .ldC_C
  | .c, .d => .ldC_D
  | .c, .e => .ldC_E
  | .c, .h => .ldC_H
  | .c, .l => .ldC_L
  | .c, .a => .ldC_A
  | .d, .b => .ldD_B
  | .d, .c => .ldD_C
  | .d, .d => .ldD_D
  | .d, .e => .ldD_E
  | .d, .h => .ldD_H
  | .d, .l => .ldD_L
  | .d, .a => .ldD_A
  | .e, .b => .ldE_B
  | .e, .c => .ldE_C
  | .e, .d => .ldE_D
  | .e, .e => .ldE_E
  | .e, .h => .ldE_H
  | .e, .l => .ldE_L
  | .e, .a => .ldE_A
  | .h, .b => .ldH_B
  | .h, .c => .ldH_C
  | .h, .d => .ldH_D
  | .h, .e => .ldH_E
  | .h, .h => .ldH_H
  | .h, .l => .ldH_L
  | .h, .a => .ldH_A
  | .l, .b => .ldL_B
  | .l, .c => .ldL_C
  | .l, .d => .ldL_D
  | .l, .e => .ldL_E
  | .l, .h => .ldL_H
  | .l, .l => .ldL_L
  | .l, .a => .ldL_A
  | .a, .b => .ldA_B
  | .a, .c => .ldA_C
  | .a, .d => .ldA_D
  | .a, .e => .ldA_E
  | .a, .h => .ldA_H
  | .a, .l => .ldA_L
  | .a, .a => .ldA_A

/-- `LD r,(HL)` (R132). -/
def Instr.ldFromMem : Reg → Instr
  | .b => .ldB_mem
  | .c => .ldC_mem
  | .d => .ldD_mem
  | .e => .ldE_mem
  | .h => .ldH_mem
  | .l => .ldL_mem
  | .a => .ldA_mem

/-- `LD (HL),r` (R133). -/
def Instr.ldToMem : Reg → Instr
  | .b => .ldMem_B
  | .c => .ldMem_C
  | .d => .ldMem_D
  | .e => .ldMem_E
  | .h => .ldMem_H
  | .l => .ldMem_L
  | .a => .ldMem_A

/-- `ADD A,r` (R150). -/
def Instr.addA : Reg → Instr
  | .b => .addA_B
  | .c => .addA_C
  | .d => .addA_D
  | .e => .addA_E
  | .h => .addA_H
  | .l => .addA_L
  | .a => .addA_A

/-- `CP r` (R151). -/
def Instr.cpReg : Reg → Instr
  | .b => .cp_B
  | .c => .cp_C
  | .d => .cp_D
  | .e => .cp_E
  | .h => .cp_H
  | .l => .cp_L
  | .a => .cp_A

end Sys2Proof
end

