-- ==== Sys2Proof/WellFormed.lean ====
section
/-! DEFINITION. The static checks. An `Instr` needs none: a register is part of the constructor, an operand is a byte or
a word, and "every value of `n` and `nn` is legal" (30_encoding.md R94), so every term of `Instr` is well formed. What
can be ill formed is a configuration (00_scope.md R7, 70_reset_and_hazards.md R254). -/

namespace Sys2Proof

/-- `1 <= MEM_SIZE <= 65536` (R7, R50, R254(a)). -/
def Config.memSizeOk (c : Config) : Bool := decide (1 ≤ c.memSize ∧ c.memSize ≤ 65536)

/-- `RENDER_PERIOD >= 1` (R7). -/
def Config.renderPeriodOk (c : Config) : Bool := decide (1 ≤ c.renderPeriod)

/-- The configuration lies in the ranges of R7. `SP_RESET` and `VIDEO_START` are 16-bit values by their type, and the
screen's measures may be any natural numbers. -/
def Config.wellFormed (c : Config) : Bool := c.memSizeOk && c.renderPeriodOk

end Sys2Proof
end

