-- ==== Sys2Proof/Machine/State.lean ====
section
/-! DEFINITION. The state of the core: exactly the tuple of 10_state.md R20, plus two fields of the model's own, the
straps `cfg` (log 1) and the record of emitted events `events` (log 7). Plain data. -/

namespace Sys2Proof.Machine

/-- Memory as a list of (address, byte) pairs (R36, 20_memory.md R50). An unlisted address reads as `0x00`, the spec's
reset content (R39, R252). The canonical form is `Memory.wf` of Machine/Ops.lean. -/
abbrev Memory := List Host.Cell

/-- The six flags, six separate Booleans with no packed form (R27, R30). -/
structure Flags where
  /-- `Z`: Zero. -/
  zero : Bool
  /-- `S`: Sign. -/
  sign : Bool
  /-- `P`: Parity, never computed (R29). -/
  parity : Bool
  /-- `C`: Carry. -/
  carry : Bool
  /-- `Hc`: Half-Carry. -/
  halfCarry : Bool
  /-- `N`: Negative, the operation type. -/
  negative : Bool
  deriving DecidableEq, Repr

/-- All six flags false: "clear all flags" (R28). -/
def Flags.clear : Flags := ⟨false, false, false, false, false, false⟩

/-- The run state (R31). -/
inductive RunState where
  | running | halted | faulted
  deriving DecidableEq, Repr

/-- The fault record (R32), meaningless unless the run state is `faulted`. -/
structure FaultRecord where
  /-- `fault_addr`, an integer: it ranges over `-1 .. 0x10000`. -/
  addr : Int
  /-- `fault_pc`: the address of the faulting instruction's opcode byte. -/
  pc : Word
  /-- `fault_op`: that opcode byte, or `0x00` when the opcode fetch itself faulted. -/
  op : Byte
  deriving DecidableEq, Repr

/-- The outputs a step can emit (R37). -/
inductive Event where
  /-- `UnknownOpcode(op, pc)` (60_exceptions.md R222). -/
  | unknownOpcode (op : Byte) (pc : Word)
  /-- `RenderYield` (46_execution_loop.md R202). -/
  | renderYield
  deriving DecidableEq, Repr

/-- The machine state (R20). -/
structure State where
  /-- The straps (R7): the model's own field, constant under every step; log 1. -/
  cfg : Config
  /-- The general registers `A B C D E H L` (R21). -/
  a : Byte
  b : Byte
  c : Byte
  d : Byte
  e : Byte
  h : Byte
  l : Byte
  /-- `PC` (R25). -/
  pc : Word
  /-- `SP` (R26). -/
  sp : Word
  /-- The flags `Z S P C Hc N` (R27). -/
  flags : Flags
  /-- `run` (R31). -/
  run : RunState
  /-- `fault_addr`, `fault_pc`, `fault_op` (R32). -/
  fault : FaultRecord
  /-- `icount` (R33). -/
  icount : Nat
  /-- `mem` (R36). -/
  mem : Memory
  /-- The events emitted since reset, newest first: the model's own record of outputs; log 7. -/
  events : List Event
  deriving DecidableEq, Repr

/-- The faults a step can stop with: none. The core's one fatal condition, `BoundsFault`, has an effect the spec
describes (46_execution_loop.md R200): a step that raises it answers a NEXT state, with the fault record written and
`run` = `faulted` (log 5). So nothing raises a `Fault`, which is safe: no run is cut short. -/
inductive Fault where
  deriving DecidableEq, Repr

/-- The reasons a step has no meaning. -/
inductive Refusal where
  /-- An instruction without a meaning, by its table mnemonic. Raised by nobody: every arm of `exec` calls a meaning.
  Safe. -/
  | notModelled (mnemonic : String)
  /-- The configuration lies outside the ranges of R7 (`MEM_SIZE` not in `1 .. 65536`, or `RENDER_PERIOD` zero), which
  the spec refuses (70_reset_and_hazards.md R254, 93_implementation_defined.md U9). Raised by `step` before it fetches.
  Safe: no claim about such a machine can be proved from a next state; log 8. -/
  | configOutOfRange
  deriving DecidableEq, Repr

/-- The machine right after reset (R39), with the default parameters and the empty image (log 2, log 4). The fault
record's values are the model's: the spec leaves them unspecified (DESIGN CHOICE, unsafe; log 3). -/
def State.reset : State where
  cfg := Config.default
  a := 0
  b := 0
  c := 0
  d := 0
  e := 0
  h := 0
  l := 0
  pc := 0
  sp := Config.default.spReset
  flags := Flags.clear
  run := .running
  fault := ⟨0, 0, 0⟩
  icount := 0
  mem := []
  events := []

end Sys2Proof.Machine
end

