-- ==== Sys2Proof/Machine/Flags.lean ====
section
/-! DEFINITION. The flag-derivation logic (40_flag_derivation.md): pure functions of the operands before the instruction
and of the wrapped result (R113), each giving all six flags. -/

namespace Sys2Proof.Machine

/-- Bits 3..0 of a byte, as a number: `v & 0x0F`. -/
def lowNibble (v : Byte) : Nat := (v &&& 0x0F).toNat

/-- `deriveAdd(a, b, result)` (R110); Parity stays false (R112). -/
def deriveAdd (a b result : Byte) : Flags where
  zero := result == 0#8
  sign := result.getLsbD 7
  parity := false
  carry := decide (result.toNat < a.toNat)
  halfCarry := decide (lowNibble a + lowNibble b > 0x0F)
  negative := false

/-- `deriveSub(a, b, result)` (R111); Parity stays false (R112). -/
def deriveSub (a b result : Byte) : Flags where
  zero := result == 0#8
  sign := result.getLsbD 7
  parity := false
  carry := decide (a.toNat < b.toNat)
  halfCarry := decide (lowNibble a < lowNibble b)
  negative := true

end Sys2Proof.Machine
end

