-- ==== Sys2Proof/Decode.lean ====
section
/-! DEFINITION. The decoder and the encoder (30_encoding.md). The decoder is the table of R89, a list of opcode bytes
with their formats, held once so that it can be corrected without touching a semantic rule (R88, decision D1). The
encoder is written from the fields of R83 to R85, not from that table: that the two agree is a theorem, not a definition.
The bytes other than the five anchored ones are the spec's own assignment: PRESUMED, unsafe; log 9. -/

namespace Sys2Proof

/-! ### Byte order (00_scope.md R8) -/

/-- `hi(v) = v[15:8]` (R8). -/
def hiByte (v : Word) : Byte := v.extractLsb' 8 8

/-- `lo(v) = v[7:0]` (R8). -/
def loByte (v : Word) : Byte := v.extractLsb' 0 8

/-- `{h, l} = h*256 + l` (R8). -/
def joinBytes (h l : Byte) : Word := h ++ l

/-! ### The decoder -/

/-- The formats of R82: what follows the opcode byte, and the instruction that results. -/
inductive Form where
  /-- F1: the opcode byte alone. -/
  | f1 (i : Instr)
  /-- F2: one operand byte `n`. -/
  | f2 (mk : Byte → Instr)
  /-- F3: two operand bytes, `nn[7:0]` then `nn[15:8]`. -/
  | f3 (mk : Word → Instr)

/-- The encoded length of a format (R81). -/
def Form.length : Form → Nat
  | .f1 _ => 1
  | .f2 _ => 2
  | .f3 _ => 3

/-- `NOP` and `HALT` (R89). -/
def opcodesNopHalt : List (Byte × Form) :=
  [ (0x00, .f1 .nop), (0x76, .f1 .halt) ]

/-- `LD r,n`: `00 yyy 110` (R89). -/
def opcodesLdImm : List (Byte × Form) :=
  [ (0x06, .f2 .ldB_n), (0x0E, .f2 .ldC_n), (0x16, .f2 .ldD_n), (0x1E, .f2 .ldE_n),
    (0x26, .f2 .ldH_n), (0x2E, .f2 .ldL_n), (0x3E, .f2 .ldA_n) ]

/-- `LD DE,nn`, `LD HL,nn`: `00 pp0 001` (R84, R89). -/
def opcodesLdPair : List (Byte × Form) :=
  [ (0x11, .f3 .ldDE_nn), (0x21, .f3 .ldHL_nn) ]

/-- `LD B,r'`: `01 yyy zzz` with `yyy` the code of `B` (R89). -/
def opcodesLdB : List (Byte × Form) :=
  [ (0x40, .f1 .ldB_B), (0x41, .f1 .ldB_C), (0x42, .f1 .ldB_D), (0x43, .f1 .ldB_E),
    (0x44, .f1 .ldB_H), (0x45, .f1 .ldB_L), (0x47, .f1 .ldB_A) ]

/-- `LD C,r'`: `01 yyy zzz` with `yyy` the code of `C` (R89). -/
def opcodesLdC : List (Byte × Form) :=
  [ (0x48, .f1 .ldC_B), (0x49, .f1 .ldC_C), (0x4A, .f1 .ldC_D), (0x4B, .f1 .ldC_E),
    (0x4C, .f1 .ldC_H), (0x4D, .f1 .ldC_L), (0x4F, .f1 .ldC_A) ]

/-- `LD D,r'`: `01 yyy zzz` with `yyy` the code of `D` (R89). -/
def opcodesLdD : List (Byte × Form) :=
  [ (0x50, .f1 .ldD_B), (0x51, .f1 .ldD_C), (0x52, .f1 .ldD_D), (0x53, .f1 .ldD_E),
    (0x54, .f1 .ldD_H), (0x55, .f1 .ldD_L), (0x57, .f1 .ldD_A) ]

/-- `LD E,r'`: `01 yyy zzz` with `yyy` the code of `E` (R89). -/
def opcodesLdE : List (Byte × Form) :=
  [ (0x58, .f1 .ldE_B), (0x59, .f1 .ldE_C), (0x5A, .f1 .ldE_D), (0x5B, .f1 .ldE_E),
    (0x5C, .f1 .ldE_H), (0x5D, .f1 .ldE_L), (0x5F, .f1 .ldE_A) ]

/-- `LD H,r'`: `01 yyy zzz` with `yyy` the code of `H` (R89). -/
def opcodesLdH : List (Byte × Form) :=
  [ (0x60, .f1 .ldH_B), (0x61, .f1 .ldH_C), (0x62, .f1 .ldH_D), (0x63, .f1 .ldH_E),
    (0x64, .f1 .ldH_H), (0x65, .f1 .ldH_L), (0x67, .f1 .ldH_A) ]

/-- `LD L,r'`: `01 yyy zzz` with `yyy` the code of `L` (R89). -/
def opcodesLdL : List (Byte × Form) :=
  [ (0x68, .f1 .ldL_B), (0x69, .f1 .ldL_C), (0x6A, .f1 .ldL_D), (0x6B, .f1 .ldL_E),
    (0x6C, .f1 .ldL_H), (0x6D, .f1 .ldL_L), (0x6F, .f1 .ldL_A) ]

/-- `LD A,r'`: `01 yyy zzz` with `yyy` the code of `A` (R89). -/
def opcodesLdA : List (Byte × Form) :=
  [ (0x78, .f1 .ldA_B), (0x79, .f1 .ldA_C), (0x7A, .f1 .ldA_D), (0x7B, .f1 .ldA_E),
    (0x7C, .f1 .ldA_H), (0x7D, .f1 .ldA_L), (0x7F, .f1 .ldA_A) ]

/-- `LD r,(HL)`: `01 yyy 110` (R89). -/
def opcodesLdFromMem : List (Byte × Form) :=
  [ (0x46, .f1 .ldB_mem), (0x4E, .f1 .ldC_mem), (0x56, .f1 .ldD_mem), (0x5E, .f1 .ldE_mem),
    (0x66, .f1 .ldH_mem), (0x6E, .f1 .ldL_mem), (0x7E, .f1 .ldA_mem) ]

/-- `LD (HL),r`: `01 110 zzz` (R89). -/
def opcodesLdToMem : List (Byte × Form) :=
  [ (0x70, .f1 .ldMem_B), (0x71, .f1 .ldMem_C), (0x72, .f1 .ldMem_D), (0x73, .f1 .ldMem_E),
    (0x74, .f1 .ldMem_H), (0x75, .f1 .ldMem_L), (0x77, .f1 .ldMem_A) ]

/-- `ADD A,r`: `10 000 zzz` (R89). -/
def opcodesAdd : List (Byte × Form) :=
  [ (0x80, .f1 .addA_B), (0x81, .f1 .addA_C), (0x82, .f1 .addA_D), (0x83, .f1 .addA_E),
    (0x84, .f1 .addA_H), (0x85, .f1 .addA_L), (0x87, .f1 .addA_A) ]

/-- `CP r`: `10 111 zzz`, and `CP n` (R89). -/
def opcodesCp : List (Byte × Form) :=
  [ (0xB8, .f1 .cp_B), (0xB9, .f1 .cp_C), (0xBA, .f1 .cp_D), (0xBB, .f1 .cp_E),
    (0xBC, .f1 .cp_H), (0xBD, .f1 .cp_L), (0xBF, .f1 .cp_A), (0xFE, .f2 .cp_n) ]

/-- Control transfer (R85, R89). -/
def opcodesControl : List (Byte × Form) :=
  [ (0xC0, .f1 .retNZ), (0xC2, .f3 .jpNZ_nn), (0xC3, .f3 .jp_nn), (0xC8, .f1 .retZ),
    (0xC9, .f1 .ret), (0xCA, .f3 .jpZ_nn), (0xCD, .f3 .call_nn) ]

/-- The opcode map: the 96 rows of R89. A byte of no row is an unknown opcode (R92). -/
def opcodeMap : List (Byte × Form) :=
  opcodesNopHalt ++ opcodesLdImm ++ opcodesLdPair ++ opcodesLdB ++ opcodesLdC ++
    opcodesLdD ++ opcodesLdE ++ opcodesLdH ++ opcodesLdL ++ opcodesLdA ++
    opcodesLdFromMem ++ opcodesLdToMem ++ opcodesAdd ++ opcodesCp ++ opcodesControl

/-- The first row of a map for an opcode byte. -/
def findForm (op : Byte) : List (Byte × Form) → Option Form
  | [] => none
  | (k, f) :: rest => if k = op then some f else findForm op rest

/-- The decode stage (46_execution_loop.md R198): a total function of the opcode byte alone; `none` is `unknown`. -/
def decodeOp (op : Byte) : Option Form := findForm op opcodeMap

/-- What a byte string decodes to. -/
inductive Decoded where
  /-- An instruction, and the bytes after it. -/
  | instr (i : Instr) (rest : List Byte)
  /-- The first byte is an unknown opcode (R92): one byte is skipped, and these follow. -/
  | unknownOpcode (op : Byte) (rest : List Byte)
  /-- The opcode is known and the string ends before its operand bytes do (log 13). -/
  | truncated (op : Byte)
  /-- The empty string holds no opcode (log 13). -/
  | noBytes
  deriving DecidableEq, Repr

/-- Decoding a byte string: total, each way of having no instruction under a name of its own (R81, R82, R94). A 16-bit
operand is little-endian (20_memory.md R54). -/
def decode : List Byte → Decoded
  | [] => .noBytes
  | op :: rest =>
    match decodeOp op with
    | none => .unknownOpcode op rest
    | some (.f1 i) => .instr i rest
    | some (.f2 mk) =>
      match rest with
      | n :: rest' => .instr (mk n) rest'
      | [] => .truncated op
    | some (.f3 mk) =>
      match rest with
      | lo :: hi :: rest' => .instr (mk (joinBytes hi lo)) rest'
      | _ => .truncated op

/-! ### The encoder -/

/-- The register codes of R83. Code 6 names no register. -/
def Reg.code : Reg → BitVec 3
  | .b => 0b000
  | .c => 0b001
  | .d => 0b010
  | .e => 0b011
  | .h => 0b100
  | .l => 0b101
  | .a => 0b111

/-- The code that stands for `(HL)` in a move (R83). -/
def memCode : BitVec 3 := 0b110

/-- An opcode byte from its fields `g = op[7:6]`, `y = op[5:3]`, `z = op[2:0]` (R83). -/
def packOpcode (g : BitVec 2) (y z : BitVec 3) : Byte := g ++ y ++ z

/-- `LD r,n`: `00 yyy 110`. -/
def ldImmOpcode (r : Reg) : Byte := packOpcode 0b00 r.code 0b110

/-- `LD r,r'`: `01 yyy zzz`. -/
def ldRegOpcode (dst src : Reg) : Byte := packOpcode 0b01 dst.code src.code

/-- `LD r,(HL)`: `01 yyy 110`. -/
def ldFromMemOpcode (r : Reg) : Byte := packOpcode 0b01 r.code memCode

/-- `LD (HL),r`: `01 110 zzz`. -/
def ldToMemOpcode (r : Reg) : Byte := packOpcode 0b01 memCode r.code

/-- `ADD A,r`: `10 000 zzz`. -/
def addOpcode (r : Reg) : Byte := packOpcode 0b10 0b000 r.code

/-- `CP r`: `10 111 zzz`. -/
def cpOpcode (r : Reg) : Byte := packOpcode 0b10 0b111 r.code

/-- The opcode byte of an instruction (R83 to R85, R89). -/
def Instr.opcode : Instr → Byte
  | .nop => packOpcode 0b00 0b000 0b000
  | .ldB_n _ => ldImmOpcode .b
  | .ldC_n _ => ldImmOpcode .c
  | .ldDE_nn _ => packOpcode 0b00 0b010 0b001
  | .ldD_n _ => ldImmOpcode .d
  | .ldE_n _ => ldImmOpcode .e
  | .ldHL_nn _ => packOpcode 0b00 0b100 0b001
  | .ldH_n _ => ldImmOpcode .h
  | .ldL_n _ => ldImmOpcode .l
  | .ldA_n _ => ldImmOpcode .a
  | .ldB_B => ldRegOpcode .b .b
  | .ldB_C => ldRegOpcode .b .c
  | .ldB_D => ldRegOpcode .b .d
  | .ldB_E => ldRegOpcode .b .e
  | .ldB_H => ldRegOpcode .b .h
  | .ldB_L => ldRegOpcode .b .l
  | .ldB_mem => ldFromMemOpcode .b
  | .ldB_A => ldRegOpcode .b .a
  | .ldC_B => ldRegOpcode .c .b
  | .ldC_C => ldRegOpcode .c .c
  | .ldC_D => ldRegOpcode .c .d
  | .ldC_E => ldRegOpcode .c .e
  | .ldC_H => ldRegOpcode .c .h
  | .ldC_L => ldRegOpcode .c .l
  | .ldC_mem => ldFromMemOpcode .c
  | .ldC_A => ldRegOpcode .c .a
  | .ldD_B => ldRegOpcode .d .b
  | .ldD_C => ldRegOpcode .d .c
  | .ldD_D => ldRegOpcode .d .d
  | .ldD_E => ldRegOpcode .d .e
  | .ldD_H => ldRegOpcode .d .h
  | .ldD_L => ldRegOpcode .d .l
  | .ldD_mem => ldFromMemOpcode .d
  | .ldD_A => ldRegOpcode .d .a
  | .ldE_B => ldRegOpcode .e .b
  | .ldE_C => ldRegOpcode .e .c
  | .ldE_D => ldRegOpcode .e .d
  | .ldE_E => ldRegOpcode .e .e
  | .ldE_H => ldRegOpcode .e .h
  | .ldE_L => ldRegOpcode .e .l
  | .ldE_mem => ldFromMemOpcode .e
  | .ldE_A => ldRegOpcode .e .a
  | .ldH_B => ldRegOpcode .h .b
  | .ldH_C => ldRegOpcode .h .c
  | .ldH_D => ldRegOpcode .h .d
  | .ldH_E => ldRegOpcode .h .e
  | .ldH_H => ldRegOpcode .h .h
  | .ldH_L => ldRegOpcode .h .l
  | .ldH_mem => ldFromMemOpcode .h
  | .ldH_A => ldRegOpcode .h .a
  | .ldL_B => ldRegOpcode .l .b
  | .ldL_C => ldRegOpcode .l .c
  | .ldL_D => ldRegOpcode .l .d
  | .ldL_E => ldRegOpcode .l .e
  | .ldL_H => ldRegOpcode .l .h
  | .ldL_L => ldRegOpcode .l .l
  | .ldL_mem => ldFromMemOpcode .l
  | .ldL_A => ldRegOpcode .l .a
  | .ldMem_B => ldToMemOpcode .b
  | .ldMem_C => ldToMemOpcode .c
  | .ldMem_D => ldToMemOpcode .d
  | .ldMem_E => ldToMemOpcode .e
  | .ldMem_H => ldToMemOpcode .h
  | .ldMem_L => ldToMemOpcode .l
  | .halt => packOpcode 0b01 0b110 0b110
  | .ldMem_A => ldToMemOpcode .a
  | .ldA_B => ldRegOpcode .a .b
  | .ldA_C => ldRegOpcode .a .c
  | .ldA_D => ldRegOpcode .a .d
  | .ldA_E => ldRegOpcode .a .e
  | .ldA_H => ldRegOpcode .a .h
  | .ldA_L => ldRegOpcode .a .l
  | .ldA_mem => ldFromMemOpcode .a
  | .ldA_A => ldRegOpcode .a .a
  | .addA_B => addOpcode .b
  | .addA_C => addOpcode .c
  | .addA_D => addOpcode .d
  | .addA_E => addOpcode .e
  | .addA_H => addOpcode .h
  | .addA_L => addOpcode .l
  | .addA_A => addOpcode .a
  | .cp_B => cpOpcode .b
  | .cp_C => cpOpcode .c
  | .cp_D => cpOpcode .d
  | .cp_E => cpOpcode .e
  | .cp_H => cpOpcode .h
  | .cp_L => cpOpcode .l
  | .cp_A => cpOpcode .a
  | .retNZ => packOpcode 0b11 0b000 0b000
  | .jpNZ_nn _ => packOpcode 0b11 0b000 0b010
  | .jp_nn _ => packOpcode 0b11 0b000 0b011
  | .retZ => packOpcode 0b11 0b001 0b000
  | .ret => packOpcode 0b11 0b001 0b001
  | .jpZ_nn _ => packOpcode 0b11 0b001 0b010
  | .call_nn _ => packOpcode 0b11 0b001 0b101
  | .cp_n _ => packOpcode 0b11 0b111 0b110

/-- The operand bytes of an instruction, in memory order (R82, R86; little-endian, 20_memory.md R54). -/
def Instr.operandBytes : Instr → List Byte
  | .nop => []
  | .ldB_n n => [n]
  | .ldC_n n => [n]
  | .ldDE_nn nn => [loByte nn, hiByte nn]
  | .ldD_n n => [n]
  | .ldE_n n => [n]
  | .ldHL_nn nn => [loByte nn, hiByte nn]
  | .ldH_n n => [n]
  | .ldL_n n => [n]
  | .ldA_n n => [n]
  | .ldB_B => []
  | .ldB_C => []
  | .ldB_D => []
  | .ldB_E => []
  | .ldB_H => []
  | .ldB_L => []
  | .ldB_mem => []
  | .ldB_A => []
  | .ldC_B => []
  | .ldC_C => []
  | .ldC_D => []
  | .ldC_E => []
  | .ldC_H => []
  | .ldC_L => []
  | .ldC_mem => []
  | .ldC_A => []
  | .ldD_B => []
  | .ldD_C => []
  | .ldD_D => []
  | .ldD_E => []
  | .ldD_H => []
  | .ldD_L => []
  | .ldD_mem => []
  | .ldD_A => []
  | .ldE_B => []
  | .ldE_C => []
  | .ldE_D => []
  | .ldE_E => []
  | .ldE_H => []
  | .ldE_L => []
  | .ldE_mem => []
  | .ldE_A => []
  | .ldH_B => []
  | .ldH_C => []
  | .ldH_D => []
  | .ldH_E => []
  | .ldH_H => []
  | .ldH_L => []
  | .ldH_mem => []
  | .ldH_A => []
  | .ldL_B => []
  | .ldL_C => []
  | .ldL_D => []
  | .ldL_E => []
  | .ldL_H => []
  | .ldL_L => []
  | .ldL_mem => []
  | .ldL_A => []
  | .ldMem_B => []
  | .ldMem_C => []
  | .ldMem_D => []
  | .ldMem_E => []
  | .ldMem_H => []
  | .ldMem_L => []
  | .halt => []
  | .ldMem_A => []
  | .ldA_B => []
  | .ldA_C => []
  | .ldA_D => []
  | .ldA_E => []
  | .ldA_H => []
  | .ldA_L => []
  | .ldA_mem => []
  | .ldA_A => []
  | .addA_B => []
  | .addA_C => []
  | .addA_D => []
  | .addA_E => []
  | .addA_H => []
  | .addA_L => []
  | .addA_A => []
  | .cp_B => []
  | .cp_C => []
  | .cp_D => []
  | .cp_E => []
  | .cp_H => []
  | .cp_L => []
  | .cp_A => []
  | .retNZ => []
  | .jpNZ_nn nn => [loByte nn, hiByte nn]
  | .jp_nn nn => [loByte nn, hiByte nn]
  | .retZ => []
  | .ret => []
  | .jpZ_nn nn => [loByte nn, hiByte nn]
  | .call_nn nn => [loByte nn, hiByte nn]
  | .cp_n n => [n]

/-- The encoding of an instruction: its opcode byte, then its operand bytes (R80, R82). -/
def encode (i : Instr) : List Byte := i.opcode :: i.operandBytes

/-- The encoded length of an instruction, 1 to 3 bytes (R81). -/
def Instr.length (i : Instr) : Nat := (encode i).length

/-! ### The host's question -/

/-- The bytes of a table word: byte `k` is bits `8k+7 .. 8k` of `w`, whose bits above `nbits` are 0. The longest
instruction has three bytes (R81). -/
def tableBytes (nbits w : Nat) : List Byte :=
  let v := w % 2 ^ nbits
  [BitVec.ofNat 8 v, BitVec.ofNat 8 (v / 256), BitVec.ofNat 8 (v / 65536)]

/-- The instruction the decoder reads from a word numbered as spec/opcode_table.json numbers its bits. -/
def decodeTableWord (nbits w : Nat) : Option Instr :=
  match decode (tableBytes nbits w) with
  | .instr i _ => some i
  | .unknownOpcode _ _ => none
  | .truncated _ => none
  | .noBytes => none

end Sys2Proof
end

