-- ==== Sys2Proof/Machine/Ops.lean ====
section
/-! DEFINITION. The shared operations: memory, reset, the one exception, the sequential successor, the stack engine, and
the end of a step. An instruction's pseudocode is a function of the state before the step that answers an `Except`:
`.error x` is `raise BoundsFault(x)`, `.ok t` is the state with all its writes collected (00_scope.md R10). Nothing of a
pseudocode that raises is kept, so every check precedes every write (46_execution_loop.md R200). -/

namespace Sys2Proof.Machine

/-! ### Memory (20_memory.md) -/

/-- The byte at an address: the listed one, or the reset content `0x00` (R39, R252). -/
def Memory.read : Memory → Nat → Byte
  | [], _ => 0#8
  | (k, v) :: rest, x => if k = x then v else Memory.read rest x

/-- The list without its entries for one address. -/
def Memory.erase : Memory → Nat → Memory
  | [], _ => []
  | (k, v) :: rest, x => if k = x then Memory.erase rest x else (k, v) :: Memory.erase rest x

/-- Insert an entry before the first one of a higher address. -/
def Memory.insert : Memory → Nat → Byte → Memory
  | [], x, v => [(x, v)]
  | (k, w) :: rest, x, v => if x < k then (x, v) :: (k, w) :: rest else (k, w) :: Memory.insert rest x v

/-- Write one byte. Writing what an unlisted address reads as removes the entry, so that equal memories are equal
data. -/
def Memory.write (m : Memory) (x : Nat) (v : Byte) : Memory :=
  if v = 0#8 then m.erase x else (m.erase x).insert x v

/-- Every listed address is above a bound, addresses rise strictly, and no listed byte is `0x00`. -/
def Memory.wfAbove : Nat → Memory → Bool
  | _, [] => true
  | lo, (k, v) :: rest => decide (lo ≤ k) && decide (v ≠ 0#8) && Memory.wfAbove (k + 1) rest

/-- The canonical form: addresses strictly rising, no entry equal to what an unlisted address reads as. -/
def Memory.wf (m : Memory) : Bool := m.wfAbove 0

/-- Every listed address is below a bound. -/
def Memory.below (bound : Nat) (m : Memory) : Bool := m.all fun cell => decide (cell.1 < bound)

/-- The bytes of an image from an address on, zeros left unlisted. -/
def Memory.ofImage : Nat → List Byte → Memory
  | _, [] => []
  | x, v :: rest => if v = 0#8 then Memory.ofImage (x + 1) rest else (x, v) :: Memory.ofImage (x + 1) rest

/-- `0 <= addr < MEM_SIZE` (R52), for an integer address: nothing is reduced modulo 65536 before the check (R53). -/
def inMemory (s : State) (x : Int) : Bool := decide (0 ≤ x ∧ x < s.cfg.memSize)

/-- `MemRead(addr, 1)` (R53). -/
def memRead (x : Int) (s : State) : Except Int Byte :=
  if inMemory s x then .ok (s.mem.read x.toNat) else .error x

/-- `MemWrite(addr, 1, v)` (R53). -/
def memWrite (x : Int) (v : Byte) (s : State) : Except Int State :=
  if inMemory s x then .ok { s with mem := s.mem.write x.toNat v } else .error x

/-! ### Reset (10_state.md R39, 70_reset_and_hazards.md R250 to R252) -/

/-- The state reset produces from the parameters and an image (R39): the image lies at address 0, cut to the memory's
size, and every other byte is `0x00` (R252). -/
def State.resetWith (cfg : Config) (image : List Byte) : State :=
  { State.reset with
    cfg := cfg, sp := cfg.spReset, mem := Memory.ofImage 0 (image.take cfg.memSize) }

/-- Reset asserted while the machine is in any state: everything but the straps is discarded, the memory too, and it is
the only way out of `halted` and `faulted` (R250). A move of the host, not a step; log 11. -/
def State.assertReset (image : List Byte) (s : State) : State := State.resetWith s.cfg image

/-! ### Events and the yield counter (46_execution_loop.md R202) -/

/-- Emit one event: the newest stands first. -/
def emit (ev : Event) (s : State) : State := { s with events := ev :: s.events }

/-- What follows every step that completes and is not `HALT`: the yield counter (R202). -/
def retire (s : State) : State :=
  if s.icount + 1 = s.cfg.renderPeriod then emit .renderYield { s with icount := 0 }
  else { s with icount := s.icount + 1 }

/-! ### The exception (60_exceptions.md R221, R227)

There is no handler, so there is no return from it (R228): the state is left by reset alone, `State.assertReset`. -/

/-- Taking `BoundsFault(x)`: the fault record and the run state are written, and nothing else (46_execution_loop.md
R200). `op` is the faulting instruction's opcode byte, or `0x00` when the opcode fetch itself faulted (10_state.md
R32). -/
def takeBoundsFault (x : Int) (op : Byte) (s : State) : State :=
  { s with run := .faulted, fault := ⟨x, s.pc, op⟩ }

/-- The end of a step whose opcode byte is `op` (R203, stages 5 to 7): the pseudocode's writes are committed and the
yield counter moves, or, if it raised, the fault is taken on the state before the step. -/
def complete (op : Byte) (s : State) : Except Int State → Host.Outcome State Fault Refusal
  | .error x => .next (takeBoundsFault x op s)
  | .ok t => .next (retire t)

/-! ### The program counter -/

/-- `pc <- target`: a target is never checked when it is written (44_control_transfer.md R172). -/
def jumpTo (target : Word) (t : State) : State := { t with pc := target }

/-- The sequential successor (46_execution_loop.md R199): `pc <- PC + len`, or `BoundsFault(PC + len)` when that exceeds
`0xFFFF`. The state given is the one with the instruction's other writes; none of them writes `PC`. -/
def advance (len : Nat) (t : State) : Except Int State :=
  if t.pc.toNat + len > 0xFFFF then .error (t.pc.toNat + len)
  else .ok (jumpTo (t.pc + BitVec.ofNat 16 len) t)

/-! ### The stack engine (41_stack_engine.md) -/

/-- `push(v)` (R121): low byte at `SP`, high byte at `SP - 1`, then `SP <- SP - 2`; the checks are on `SP`, on `SP - 1`
and on `SP - 2`, in that order. -/
def push (v : Word) (s : State) : Except Int State :=
  let aLo : Int := s.sp.toNat
  let aHi := aLo - 1
  let sp' := aLo - 2
  match memWrite aLo (loByte v) s with
  | .error x => .error x
  | .ok s1 =>
    match memWrite aHi (hiByte v) s1 with
    | .error x => .error x
    | .ok s2 => if sp' < 0 then .error sp' else .ok { s2 with sp := s.sp - 2 }

/-- `pop()` (R122): the high byte from `SP + 1`, the low byte from `SP + 2`, `SP <- SP + 2`. -/
def pop (s : State) : Except Int (Word × State) :=
  let aHi : Int := s.sp.toNat + 1
  let aLo : Int := s.sp.toNat + 2
  match memRead aHi s with
  | .error x => .error x
  | .ok hi =>
    match memRead aLo s with
    | .error x => .error x
    | .ok lo => .ok (joinBytes hi lo, { s with sp := s.sp + 2 })

end Sys2Proof.Machine
end

