-- ==== Sys2Proof/Machine/Operands.lean ====
section
/-! DEFINITION. The operand forms (30_encoding.md R87): registers, the pair views, the byte at `(HL)`, the conditions. The
immediates are arguments of the instructions, the accumulator is `Reg.a`, and the stack is `push` and `pop` of Ops.lean. -/

namespace Sys2Proof.Machine

/-- `x[c]`: the value of a general register (00_scope.md R9, 10_state.md R21, R24). -/
def State.reg (s : State) : Reg → Byte
  | .b => s.b
  | .c => s.c
  | .d => s.d
  | .e => s.e
  | .h => s.h
  | .l => s.l
  | .a => s.a

/-- `x[c] <- v` (00_scope.md R9). -/
def State.setReg (s : State) (r : Reg) (v : Byte) : State :=
  match r with
  | .b => { s with b := v }
  | .c => { s with c := v }
  | .d => { s with d := v }
  | .e => { s with e := v }
  | .h => { s with h := v }
  | .l => { s with l := v }
  | .a => { s with a := v }

/-- `HL = {H, L}`, a view with no storage of its own (10_state.md R23). -/
def State.hl (s : State) : Word := joinBytes s.h s.l

/-- `DE = {D, E}` (R23); that `D` is the high byte is PRESUMED by the spec, log 15. -/
def State.de (s : State) : Word := joinBytes s.d s.e

/-- `HL <- v` writes `H <- hi(v)` and `L <- lo(v)` together (R23). -/
def State.setHL (s : State) (v : Word) : State := { s with h := hiByte v, l := loByte v }

/-- `DE <- v` writes `D <- hi(v)` and `E <- lo(v)` together (R23). -/
def State.setDE (s : State) (v : Word) : State := { s with d := hiByte v, e := loByte v }

/-- The memory operand `(HL)` read: `MemRead(HL, 1)`. -/
def readAtHL (s : State) : Except Int Byte := memRead s.hl.toNat s

/-- The memory operand `(HL)` written: `MemWrite(HL, 1, v)`. -/
def writeAtHL (v : Byte) (s : State) : Except Int State := memWrite s.hl.toNat v s

/-- The condition `Z`: the Zero flag is true (44_control_transfer.md R172); PRESUMED by the spec, log 15. -/
def condZ (s : State) : Bool := s.flags.zero

/-- The condition `NZ`: the Zero flag is false (R172). -/
def condNZ (s : State) : Bool := !s.flags.zero

end Sys2Proof.Machine
end

