-- ==== Sys2Proof/Machine/Arith.lean ====
section
/-! DEFINITION. Arithmetic and compare (43_arithmetic_compare.md): the only instructions that write flags, each all six
(10_state.md R28). Data arithmetic is on bytes and wraps modulo 256 (R153). -/

namespace Sys2Proof.Machine

/-- `ADD A,r`: the sum of the old `A` and the old `r`, its flags, `pc <- PC + 1` (R150). -/
def addToA (b : Byte) (s : State) : Except Int State :=
  let res := s.a + b
  advance 1 { s with a := res, flags := deriveAdd s.a b res }

/-- `CP`: the difference is used for the flags and discarded; `pc <- PC + len` (R151, R152). -/
def compareA (b : Byte) (len : Nat) (s : State) : Except Int State :=
  advance len { s with flags := deriveSub s.a b (s.a - b) }

/-! ### `ADD A,r` -/

/-- `ADD A,B` (R150). -/
def execAddA_B (s : State) : Host.Outcome State Fault Refusal :=
  complete (Instr.opcode .addA_B) s (addToA (s.reg .b) s)

/-- `ADD A,C` (R150). -/
def execAddA_C (s : State) : Host.Outcome State Fault Refusal :=
  complete (Instr.opcode .addA_C) s (addToA (s.reg .c) s)

/-- `ADD A,D` (R150). -/
def execAddA_D (s : State) : Host.Outcome State Fault Refusal :=
  complete (Instr.opcode .addA_D) s (addToA (s.reg .d) s)

/-- `ADD A,E` (R150). -/
def execAddA_E (s : State) : Host.Outcome State Fault Refusal :=
  complete (Instr.opcode .addA_E) s (addToA (s.reg .e) s)

/-- `ADD A,H` (R150). -/
def execAddA_H (s : State) : Host.Outcome State Fault Refusal :=
  complete (Instr.opcode .addA_H) s (addToA (s.reg .h) s)

/-- `ADD A,L` (R150). -/
def execAddA_L (s : State) : Host.Outcome State Fault Refusal :=
  complete (Instr.opcode .addA_L) s (addToA (s.reg .l) s)

/-- `ADD A,A` (R150). -/
def execAddA_A (s : State) : Host.Outcome State Fault Refusal :=
  complete (Instr.opcode .addA_A) s (addToA (s.reg .a) s)

/-! ### `CP r` and `CP n` -/

/-- `CP B` (R151). -/
def execCp_B (s : State) : Host.Outcome State Fault Refusal :=
  complete (Instr.opcode .cp_B) s (compareA (s.reg .b) 1 s)

/-- `CP C` (R151). -/
def execCp_C (s : State) : Host.Outcome State Fault Refusal :=
  complete (Instr.opcode .cp_C) s (compareA (s.reg .c) 1 s)

/-- `CP D` (R151). -/
def execCp_D (s : State) : Host.Outcome State Fault Refusal :=
  complete (Instr.opcode .cp_D) s (compareA (s.reg .d) 1 s)

/-- `CP E` (R151). -/
def execCp_E (s : State) : Host.Outcome State Fault Refusal :=
  complete (Instr.opcode .cp_E) s (compareA (s.reg .e) 1 s)

/-- `CP H` (R151). -/
def execCp_H (s : State) : Host.Outcome State Fault Refusal :=
  complete (Instr.opcode .cp_H) s (compareA (s.reg .h) 1 s)

/-- `CP L` (R151). -/
def execCp_L (s : State) : Host.Outcome State Fault Refusal :=
  complete (Instr.opcode .cp_L) s (compareA (s.reg .l) 1 s)

/-- `CP A` (R151). -/
def execCp_A (s : State) : Host.Outcome State Fault Refusal :=
  complete (Instr.opcode .cp_A) s (compareA (s.reg .a) 1 s)

/-- `CP n` (R152). -/
def execCp_n (n : Byte) (s : State) : Host.Outcome State Fault Refusal :=
  complete (Instr.opcode (.cp_n n)) s (compareA n 2 s)

end Sys2Proof.Machine
end

