-- ==== Sys2Proof/Machine/Control.lean ====
section
/-! DEFINITION. Control transfer (44_control_transfer.md). None writes a flag. A target is not checked when it is written
to `PC`, and the sequential successor is checked only where it is used (46_execution_loop.md R199). -/

namespace Sys2Proof.Machine

/-- `JP cc,nn`: `pc <- nn` if the condition holds, else `pc <- PC + 3` (R166, R167). -/
def jumpIf (taken : Bool) (nn : Word) (s : State) : Except Int State :=
  if taken then .ok (jumpTo nn s) else advance 3 s

/-- `CALL nn`: the return address `PC + 3` must fit 16 bits, then `push`, then `pc <- nn` (R168). -/
def callTo (nn : Word) (s : State) : Except Int State :=
  if s.pc.toNat + 3 > 0xFFFF then .error (s.pc.toNat + 3)
  else
    match push (s.pc + 3) s with
    | .error x => .error x
    | .ok t => .ok (jumpTo nn t)

/-- `RET`: `pc <- pop()` (R169). -/
def returnFromCall (s : State) : Except Int State :=
  match pop s with
  | .error x => .error x
  | .ok (v, t) => .ok (jumpTo v t)

/-- `RET cc`: `pc <- pop()` if the condition holds, else `pc <- PC + 1` with the stack untouched (R170, R171). -/
def returnIf (taken : Bool) (s : State) : Except Int State :=
  if taken then returnFromCall s else advance 1 s

/-- `JP nn` (R165). -/
def execJp_nn (nn : Word) (s : State) : Host.Outcome State Fault Refusal :=
  complete (Instr.opcode (.jp_nn nn)) s (.ok (jumpTo nn s))

/-- `JP Z,nn` (R166). -/
def execJpZ_nn (nn : Word) (s : State) : Host.Outcome State Fault Refusal :=
  complete (Instr.opcode (.jpZ_nn nn)) s (jumpIf (condZ s) nn s)

/-- `JP NZ,nn` (R167). -/
def execJpNZ_nn (nn : Word) (s : State) : Host.Outcome State Fault Refusal :=
  complete (Instr.opcode (.jpNZ_nn nn)) s (jumpIf (condNZ s) nn s)

/-- `CALL nn` (R168). -/
def execCall_nn (nn : Word) (s : State) : Host.Outcome State Fault Refusal :=
  complete (Instr.opcode (.call_nn nn)) s (callTo nn s)

/-- `RET` (R169). -/
def execRet (s : State) : Host.Outcome State Fault Refusal :=
  complete (Instr.opcode .ret) s (returnFromCall s)

/-- `RET Z` (R170). -/
def execRetZ (s : State) : Host.Outcome State Fault Refusal :=
  complete (Instr.opcode .retZ) s (returnIf (condZ s) s)

/-- `RET NZ` (R171). -/
def execRetNZ (s : State) : Host.Outcome State Fault Refusal :=
  complete (Instr.opcode .retNZ) s (returnIf (condNZ s) s)

end Sys2Proof.Machine
end

