-- ==== Sys2Proof/Machine/Loads.lean ====
section
/-! DEFINITION. The loads and moves (42_loads.md). None writes a flag. Each form's pseudocode is said once; each
instruction is that form at its registers. The fetch-stage faults belong to the step (Machine/Fetch.lean). -/

namespace Sys2Proof.Machine

/-- `LD r,n`: `x[y] <- n`, `pc <- PC + 2` (R130). -/
def loadImm (r : Reg) (n : Byte) (s : State) : Except Int State := advance 2 (s.setReg r n)

/-- `LD r,r'`: `x[y] <- x[z]`, `pc <- PC + 1` (R131). -/
def moveReg (dst src : Reg) (s : State) : Except Int State := advance 1 (s.setReg dst (s.reg src))

/-- `LD r,(HL)`: `x[y] <- MemRead({H, L}, 1)`, `pc <- PC + 1` (R132). The address is that of the old `H` and `L`. -/
def loadFromHL (r : Reg) (s : State) : Except Int State :=
  match readAtHL s with
  | .error x => .error x
  | .ok v => advance 1 (s.setReg r v)

/-- `LD (HL),r`: `MemWrite({H, L}, 1, x[z])`, `pc <- PC + 1` (R133). -/
def storeToHL (r : Reg) (s : State) : Except Int State :=
  match writeAtHL (s.reg r) s with
  | .error x => .error x
  | .ok t => advance 1 t

/-- `LD HL,nn`: `HL <- nn`, `pc <- PC + 3` (R134). -/
def loadHL (nn : Word) (s : State) : Except Int State := advance 3 (s.setHL nn)

/-- `LD DE,nn`: `DE <- nn`, `pc <- PC + 3` (R135). -/
def loadDE (nn : Word) (s : State) : Except Int State := advance 3 (s.setDE nn)

/-! ### `LD r,n` -/

/-- `LD B,n` (R130). -/
def execLdB_n (n : Byte) (s : State) : Host.Outcome State Fault Refusal :=
  complete (Instr.opcode (.ldB_n n)) s (loadImm .b n s)

/-- `LD C,n` (R130). -/
def execLdC_n (n : Byte) (s : State) : Host.Outcome State Fault Refusal :=
  complete (Instr.opcode (.ldC_n n)) s (loadImm .c n s)

/-- `LD D,n` (R130). -/
def execLdD_n (n : Byte) (s : State) : Host.Outcome State Fault Refusal :=
  complete (Instr.opcode (.ldD_n n)) s (loadImm .d n s)

/-- `LD E,n` (R130). -/
def execLdE_n (n : Byte) (s : State) : Host.Outcome State Fault Refusal :=
  complete (Instr.opcode (.ldE_n n)) s (loadImm .e n s)

/-- `LD H,n` (R130). -/
def execLdH_n (n : Byte) (s : State) : Host.Outcome State Fault Refusal :=
  complete (Instr.opcode (.ldH_n n)) s (loadImm .h n s)

/-- `LD L,n` (R130). -/
def execLdL_n (n : Byte) (s : State) : Host.Outcome State Fault Refusal :=
  complete (Instr.opcode (.ldL_n n)) s (loadImm .l n s)

/-- `LD A,n` (R130). -/
def execLdA_n (n : Byte) (s : State) : Host.Outcome State Fault Refusal :=
  complete (Instr.opcode (.ldA_n n)) s (loadImm .a n s)

/-! ### `LD DE,nn` and `LD HL,nn` -/

/-- `LD DE,nn` (R135). -/
def execLdDE_nn (nn : Word) (s : State) : Host.Outcome State Fault Refusal :=
  complete (Instr.opcode (.ldDE_nn nn)) s (loadDE nn s)

/-- `LD HL,nn` (R134). -/
def execLdHL_nn (nn : Word) (s : State) : Host.Outcome State Fault Refusal :=
  complete (Instr.opcode (.ldHL_nn nn)) s (loadHL nn s)

/-! ### `LD B,r'` -/

/-- `LD B,B` (R131). -/
def execLdB_B (s : State) : Host.Outcome State Fault Refusal :=
  complete (Instr.opcode .ldB_B) s (moveReg .b .b s)

/-- `LD B,C` (R131). -/
def execLdB_C (s : State) : Host.Outcome State Fault Refusal :=
  complete (Instr.opcode .ldB_C) s (moveReg .b .c s)

/-- `LD B,D` (R131). -/
def execLdB_D (s : State) : Host.Outcome State Fault Refusal :=
  complete (Instr.opcode .ldB_D) s (moveReg .b .d s)

/-- `LD B,E` (R131). -/
def execLdB_E (s : State) : Host.Outcome State Fault Refusal :=
  complete (Instr.opcode .ldB_E) s (moveReg .b .e s)

/-- `LD B,H` (R131). -/
def execLdB_H (s : State) : Host.Outcome State Fault Refusal :=
  complete (Instr.opcode .ldB_H) s (moveReg .b .h s)

/-- `LD B,L` (R131). -/
def execLdB_L (s : State) : Host.Outcome State Fault Refusal :=
  complete (Instr.opcode .ldB_L) s (moveReg .b .l s)

/-- `LD B,A` (R131). -/
def execLdB_A (s : State) : Host.Outcome State Fault Refusal :=
  complete (Instr.opcode .ldB_A) s (moveReg .b .a s)

/-! ### `LD C,r'` -/

/-- `LD C,B` (R131). -/
def execLdC_B (s : State) : Host.Outcome State Fault Refusal :=
  complete (Instr.opcode .ldC_B) s (moveReg .c .b s)

/-- `LD C,C` (R131). -/
def execLdC_C (s : State) : Host.Outcome State Fault Refusal :=
  complete (Instr.opcode .ldC_C) s (moveReg .c .c s)

/-- `LD C,D` (R131). -/
def execLdC_D (s : State) : Host.Outcome State Fault Refusal :=
  complete (Instr.opcode .ldC_D) s (moveReg .c .d s)

/-- `LD C,E` (R131). -/
def execLdC_E (s : State) : Host.Outcome State Fault Refusal :=
  complete (Instr.opcode .ldC_E) s (moveReg .c .e s)

/-- `LD C,H` (R131). -/
def execLdC_H (s : State) : Host.Outcome State Fault Refusal :=
  complete (Instr.opcode .ldC_H) s (moveReg .c .h s)

/-- `LD C,L` (R131). -/
def execLdC_L (s : State) : Host.Outcome State Fault Refusal :=
  complete (Instr.opcode .ldC_L) s (moveReg .c .l s)

/-- `LD C,A` (R131). -/
def execLdC_A (s : State) : Host.Outcome State Fault Refusal :=
  complete (Instr.opcode .ldC_A) s (moveReg .c .a s)

/-! ### `LD D,r'` -/

/-- `LD D,B` (R131). -/
def execLdD_B (s : State) : Host.Outcome State Fault Refusal :=
  complete (Instr.opcode .ldD_B) s (moveReg .d .b s)

/-- `LD D,C` (R131). -/
def execLdD_C (s : State) : Host.Outcome State Fault Refusal :=
  complete (Instr.opcode .ldD_C) s (moveReg .d .c s)

/-- `LD D,D` (R131). -/
def execLdD_D (s : State) : Host.Outcome State Fault Refusal :=
  complete (Instr.opcode .ldD_D) s (moveReg .d .d s)

/-- `LD D,E` (R131). -/
def execLdD_E (s : State) : Host.Outcome State Fault Refusal :=
  complete (Instr.opcode .ldD_E) s (moveReg .d .e s)

/-- `LD D,H` (R131). -/
def execLdD_H (s : State) : Host.Outcome State Fault Refusal :=
  complete (Instr.opcode .ldD_H) s (moveReg .d .h s)

/-- `LD D,L` (R131). -/
def execLdD_L (s : State) : Host.Outcome State Fault Refusal :=
  complete (Instr.opcode .ldD_L) s (moveReg .d .l s)

/-- `LD D,A` (R131). -/
def execLdD_A (s : State) : Host.Outcome State Fault Refusal :=
  complete (Instr.opcode .ldD_A) s (moveReg .d .a s)

/-! ### `LD E,r'` -/

/-- `LD E,B` (R131). -/
def execLdE_B (s : State) : Host.Outcome State Fault Refusal :=
  complete (Instr.opcode .ldE_B) s (moveReg .e .b s)

/-- `LD E,C` (R131). -/
def execLdE_C (s : State) : Host.Outcome State Fault Refusal :=
  complete (Instr.opcode .ldE_C) s (moveReg .e .c s)

/-- `LD E,D` (R131). -/
def execLdE_D (s : State) : Host.Outcome State Fault Refusal :=
  complete (Instr.opcode .ldE_D) s (moveReg .e .d s)

/-- `LD E,E` (R131). -/
def execLdE_E (s : State) : Host.Outcome State Fault Refusal :=
  complete (Instr.opcode .ldE_E) s (moveReg .e .e s)

/-- `LD E,H` (R131). -/
def execLdE_H (s : State) : Host.Outcome State Fault Refusal :=
  complete (Instr.opcode .ldE_H) s (moveReg .e .h s)

/-- `LD E,L` (R131). -/
def execLdE_L (s : State) : Host.Outcome State Fault Refusal :=
  complete (Instr.opcode .ldE_L) s (moveReg .e .l s)

/-- `LD E,A` (R131). -/
def execLdE_A (s : State) : Host.Outcome State Fault Refusal :=
  complete (Instr.opcode .ldE_A) s (moveReg .e .a s)

/-! ### `LD H,r'` -/

/-- `LD H,B` (R131). -/
def execLdH_B (s : State) : Host.Outcome State Fault Refusal :=
  complete (Instr.opcode .ldH_B) s (moveReg .h .b s)

/-- `LD H,C` (R131). -/
def execLdH_C (s : State) : Host.Outcome State Fault Refusal :=
  complete (Instr.opcode .ldH_C) s (moveReg .h .c s)

/-- `LD H,D` (R131). -/
def execLdH_D (s : State) : Host.Outcome State Fault Refusal :=
  complete (Instr.opcode .ldH_D) s (moveReg .h .d s)

/-- `LD H,E` (R131). -/
def execLdH_E (s : State) : Host.Outcome State Fault Refusal :=
  complete (Instr.opcode .ldH_E) s (moveReg .h .e s)

/-- `LD H,H` (R131). -/
def execLdH_H (s : State) : Host.Outcome State Fault Refusal :=
  complete (Instr.opcode .ldH_H) s (moveReg .h .h s)

/-- `LD H,L` (R131). -/
def execLdH_L (s : State) : Host.Outcome State Fault Refusal :=
  complete (Instr.opcode .ldH_L) s (moveReg .h .l s)

/-- `LD H,A` (R131). -/
def execLdH_A (s : State) : Host.Outcome State Fault Refusal :=
  complete (Instr.opcode .ldH_A) s (moveReg .h .a s)

/-! ### `LD L,r'` -/

/-- `LD L,B` (R131). -/
def execLdL_B (s : State) : Host.Outcome State Fault Refusal :=
  complete (Instr.opcode .ldL_B) s (moveReg .l .b s)

/-- `LD L,C` (R131). -/
def execLdL_C (s : State) : Host.Outcome State Fault Refusal :=
  complete (Instr.opcode .ldL_C) s (moveReg .l .c s)

/-- `LD L,D` (R131). -/
def execLdL_D (s : State) : Host.Outcome State Fault Refusal :=
  complete (Instr.opcode .ldL_D) s (moveReg .l .d s)

/-- `LD L,E` (R131). -/
def execLdL_E (s : State) : Host.Outcome State Fault Refusal :=
  complete (Instr.opcode .ldL_E) s (moveReg .l .e s)

/-- `LD L,H` (R131). -/
def execLdL_H (s : State) : Host.Outcome State Fault Refusal :=
  complete (Instr.opcode .ldL_H) s (moveReg .l .h s)

/-- `LD L,L` (R131). -/
def execLdL_L (s : State) : Host.Outcome State Fault Refusal :=
  complete (Instr.opcode .ldL_L) s (moveReg .l .l s)

/-- `LD L,A` (R131). -/
def execLdL_A (s : State) : Host.Outcome State Fault Refusal :=
  complete (Instr.opcode .ldL_A) s (moveReg .l .a s)

/-! ### `LD A,r'` -/

/-- `LD A,B` (R131). -/
def execLdA_B (s : State) : Host.Outcome State Fault Refusal :=
  complete (Instr.opcode .ldA_B) s (moveReg .a .b s)

/-- `LD A,C` (R131). -/
def execLdA_C (s : State) : Host.Outcome State Fault Refusal :=
  complete (Instr.opcode .ldA_C) s (moveReg .a .c s)

/-- `LD A,D` (R131). -/
def execLdA_D (s : State) : Host.Outcome State Fault Refusal :=
  complete (Instr.opcode .ldA_D) s (moveReg .a .d s)

/-- `LD A,E` (R131). -/
def execLdA_E (s : State) : Host.Outcome State Fault Refusal :=
  complete (Instr.opcode .ldA_E) s (moveReg .a .e s)

/-- `LD A,H` (R131). -/
def execLdA_H (s : State) : Host.Outcome State Fault Refusal :=
  complete (Instr.opcode .ldA_H) s (moveReg .a .h s)

/-- `LD A,L` (R131). -/
def execLdA_L (s : State) : Host.Outcome State Fault Refusal :=
  complete (Instr.opcode .ldA_L) s (moveReg .a .l s)

/-- `LD A,A` (R131). -/
def execLdA_A (s : State) : Host.Outcome State Fault Refusal :=
  complete (Instr.opcode .ldA_A) s (moveReg .a .a s)

/-! ### `LD r,(HL)` -/

/-- `LD B,(HL)` (R132). -/
def execLdB_mem (s : State) : Host.Outcome State Fault Refusal :=
  complete (Instr.opcode .ldB_mem) s (loadFromHL .b s)

/-- `LD C,(HL)` (R132). -/
def execLdC_mem (s : State) : Host.Outcome State Fault Refusal :=
  complete (Instr.opcode .ldC_mem) s (loadFromHL .c s)

/-- `LD D,(HL)` (R132). -/
def execLdD_mem (s : State) : Host.Outcome State Fault Refusal :=
  complete (Instr.opcode .ldD_mem) s (loadFromHL .d s)

/-- `LD E,(HL)` (R132). -/
def execLdE_mem (s : State) : Host.Outcome State Fault Refusal :=
  complete (Instr.opcode .ldE_mem) s (loadFromHL .e s)

/-- `LD H,(HL)` (R132). -/
def execLdH_mem (s : State) : Host.Outcome State Fault Refusal :=
  complete (Instr.opcode .ldH_mem) s (loadFromHL .h s)

/-- `LD L,(HL)` (R132). -/
def execLdL_mem (s : State) : Host.Outcome State Fault Refusal :=
  complete (Instr.opcode .ldL_mem) s (loadFromHL .l s)

/-- `LD A,(HL)` (R132). -/
def execLdA_mem (s : State) : Host.Outcome State Fault Refusal :=
  complete (Instr.opcode .ldA_mem) s (loadFromHL .a s)

/-! ### `LD (HL),r` -/

/-- `LD (HL),B` (R133). -/
def execLdMem_B (s : State) : Host.Outcome State Fault Refusal :=
  complete (Instr.opcode .ldMem_B) s (storeToHL .b s)

/-- `LD (HL),C` (R133). -/
def execLdMem_C (s : State) : Host.Outcome State Fault Refusal :=
  complete (Instr.opcode .ldMem_C) s (storeToHL .c s)

/-- `LD (HL),D` (R133). -/
def execLdMem_D (s : State) : Host.Outcome State Fault Refusal :=
  complete (Instr.opcode .ldMem_D) s (storeToHL .d s)

/-- `LD (HL),E` (R133). -/
def execLdMem_E (s : State) : Host.Outcome State Fault Refusal :=
  complete (Instr.opcode .ldMem_E) s (storeToHL .e s)

/-- `LD (HL),H` (R133). -/
def execLdMem_H (s : State) : Host.Outcome State Fault Refusal :=
  complete (Instr.opcode .ldMem_H) s (storeToHL .h s)

/-- `LD (HL),L` (R133). -/
def execLdMem_L (s : State) : Host.Outcome State Fault Refusal :=
  complete (Instr.opcode .ldMem_L) s (storeToHL .l s)

/-- `LD (HL),A` (R133). -/
def execLdMem_A (s : State) : Host.Outcome State Fault Refusal :=
  complete (Instr.opcode .ldMem_A) s (storeToHL .a s)

end Sys2Proof.Machine
end

