-- ==== Sys2Proof/Machine/System.lean ====
section
/-! DEFINITION. `NOP`, `HALT` and the unknown opcode (45_halt_nop_unknown.md). -/

namespace Sys2Proof.Machine

/-- `NOP` (R185). -/
def execNop (s : State) : Host.Outcome State Fault Refusal :=
  complete (Instr.opcode .nop) s (advance 1 s)

/-- `HALT` (R186): `run <- Halted`, one `RenderYield`; `PC` keeps the address of the `HALT` opcode, the yield counter
does not move (46_execution_loop.md R202), and no check can fail. -/
def execHalt (s : State) : Host.Outcome State Fault Refusal :=
  .next (emit .renderYield { s with run := .halted })

/-- An unknown opcode (R187): the event with the opcode value and its address, and `pc <- PC + 1`. Not an instruction of
the table; the step gives it this effect. At `0xFFFF` the fault wins and no event is emitted (60_exceptions.md R226). -/
def execUnknown (op : Byte) (s : State) : Host.Outcome State Fault Refusal :=
  complete op s (advance 1 (emit (.unknownOpcode op s.pc) s))

end Sys2Proof.Machine
end

