-- ==== Sys2Proof/Machine/Fetch.lean ====
section
/-! DEFINITION. The fetch stage (46_execution_loop.md R197): the opcode byte, then the operand bytes of the encoded length,
each checked against memory before it is read; the bytes are those memory holds now (20_memory.md R64). -/

namespace Sys2Proof.Machine

/-- What the fetch stage ends in. -/
inductive Fetched where
  /-- `BoundsFault(x)`, with the opcode byte the fault record gets (`0x00` when the opcode fetch itself failed). -/
  | bounds (x : Int) (op : Byte)
  /-- An unknown opcode, of length 1: no further byte is read (45_halt_nop_unknown.md R187). -/
  | unknown (op : Byte)
  /-- An instruction with its operands. -/
  | instr (i : Instr)
  deriving DecidableEq, Repr

/-- The operand bytes of a format, read in ascending order, make the instruction (R197; little-endian, 20_memory.md R54).
All are read whether or not a condition will hold (decision D18). -/
def fetchOperands (op : Byte) (f : Form) (s : State) : Fetched :=
  match f with
  | .f1 i => .instr i
  | .f2 mk =>
    match memRead (s.pc.toNat + 1) s with
    | .error x => .bounds x op
    | .ok n => .instr (mk n)
  | .f3 mk =>
    match memRead (s.pc.toNat + 1) s with
    | .error x => .bounds x op
    | .ok lo =>
      match memRead (s.pc.toNat + 2) s with
      | .error x => .bounds x op
      | .ok hi => .instr (mk (joinBytes hi lo))

/-- The fetch and decode stages (R197, R198). -/
def fetch (s : State) : Fetched :=
  match memRead s.pc.toNat s with
  | .error x => .bounds x 0
  | .ok op =>
    match decodeOp op with
    | none => .unknown op
    | some f => fetchOperands op f s

/-- Bytes laid down from an address on, those outside memory dropped: how a program is placed from outside (log 4). -/
def placeBytes : Nat → List Byte → State → State
  | _, [], s => s
  | x, v :: rest, s =>
    placeBytes (x + 1) rest (if x < s.cfg.memSize then { s with mem := s.mem.write x v } else s)

end Sys2Proof.Machine
end

