-- ==== Sys2Proof/Machine/Step.lean ====
section
/-! DEFINITION. One step of the core (46_execution_loop.md R196, R203). -/

namespace Sys2Proof.Machine

/-- One step: fetch, decode, and the instruction's meaning. A core that is not running takes no step and nothing changes
(R195; log 6). A configuration outside its range is refused (log 8). -/
def step (s : State) : Host.Outcome State Fault Refusal :=
  if s.cfg.wellFormed then
    match s.run with
    | .halted => .next s
    | .faulted => .next s
    | .running =>
      match fetch s with
      | .bounds x op => .next (takeBoundsFault x op s)
      | .unknown op => execUnknown op s
      | .instr i => exec i s
  else .refused .configOutOfRange

/-- The instruction of a table word placed where the next step fetches, in a core that runs: three bytes from `PC` on,
the longest instruction (30_encoding.md R81). Log 4. -/
def State.withFetchWord (s : State) (nbits w : Nat) : State :=
  { placeBytes s.pc.toNat (tableBytes nbits w) s with run := .running }

end Sys2Proof.Machine
end

