-- ==== Sys2Proof/Machine/Video.lean ====
section
/-! DEFINITION. The renderer's read-only view of the video plane (60_exceptions.md R232, 20_memory.md R65). To the core the
plane is plain memory (R59); nothing here is part of a step. -/

namespace Sys2Proof.Machine

/-- The address of the cell in column `x` and row `y`, row-major: `VIDEO_START + y*SCREEN_W + x` (R232). -/
def videoAddr (cfg : Config) (x y : Nat) : Nat := cfg.videoStart.toNat + y * cfg.screenW + x

/-- The byte the renderer reads for a cell: `none` outside the screen or outside memory (log 12). -/
def videoCell (x y : Nat) (s : State) : Option Byte :=
  if x < s.cfg.screenW ∧ y < s.cfg.screenH then (memRead (videoAddr s.cfg x y) s).toOption else none

/-- The plane, `SCREEN_W*SCREEN_H` cells in address order. -/
def videoPlane (s : State) : List (Option Byte) :=
  (List.range (s.cfg.screenW * s.cfg.screenH)).map fun k => (memRead (s.cfg.videoStart.toNat + k) s).toOption

end Sys2Proof.Machine
end

