-- ==== Sys2Proof/Safety.lean ====
section
/-! DEFINITION. The terms claims use: the outputs, the ends of a run, the invariant. -/

namespace Sys2Proof.Machine

/-! ### Outputs (10_state.md R37) -/

/-- The signal `halted`. -/
def State.isHalted (s : State) : Bool := s.run == .halted

/-- The signal `faulted`: the fault record is meaningful. -/
def State.isFaulted (s : State) : Bool := s.run == .faulted

/-- The two conditions of 60_exceptions.md R223. -/
inductive Condition where
  | unknownOpcode | boundsFault
  deriving DecidableEq, Repr

/-- Their codes, labels only (R223). -/
def Condition.code : Condition → Nat
  | .unknownOpcode => 1
  | .boundsFault => 2

/-- The event is `UnknownOpcode`. -/
def Event.isUnknownOpcode : Event → Bool
  | .unknownOpcode _ _ => true
  | .renderYield => false

/-- A clean halt: `Halted`, and no `UnknownOpcode` event since reset (46_execution_loop.md R204). -/
def State.cleanHalt (s : State) : Bool := s.isHalted && !s.events.any Event.isUnknownOpcode

/-! ### Runs -/

/-- That many steps, stopping at the first that answers no next state (R195). -/
def runFor : Nat → State → Host.Outcome State Fault Refusal
  | 0, s => .next s
  | k + 1, s =>
    match step s with
    | .next t => runFor k t
    | .fault r => .fault r
    | .refused r => .refused r

/-! ### The invariant -/

/-- What every step keeps. The configuration is in range (R7); memory is in canonical form and lies inside `MEM_SIZE`
(R50); `P` is false (10_state.md R29); `icount` is below `RENDER_PERIOD` (R20); `fault_addr` lies in its range (R32);
`SP` differs from `SP_RESET` by a multiple of 2 (R26, 41_stack_engine.md R120). -/
structure State.Inv (s : State) : Prop where
  config : s.cfg.wellFormed = true
  memCanonical : s.mem.wf = true
  memInside : s.mem.below s.cfg.memSize = true
  parityClear : s.flags.parity = false
  icountBelow : s.icount < s.cfg.renderPeriod
  faultAddrLow : -1 ≤ s.fault.addr
  faultAddrHigh : s.fault.addr ≤ 0x10000
  spParity : s.sp.toNat % 2 = s.cfg.spReset.toNat % 2

/-- The part of the state the architecture is about: everything but the yield counter, the fault record, the record of
events and the parameters only the renderer's cadence and view depend on (R33, R41). -/
structure SameCore (s t : State) : Prop where
  regs : ∀ r, s.reg r = t.reg r
  pc : s.pc = t.pc
  sp : s.sp = t.sp
  flags : s.flags = t.flags
  run : s.run = t.run
  mem : s.mem = t.mem
  memSize : s.cfg.memSize = t.cfg.memSize

end Sys2Proof.Machine
end

