-- ==== Sys2Proof/Certificates/Slice0/Obligations.lean ====
section
/-! DEFINITION. The statements for the provers, each from the rules its docstring names. A form such as `.ldImm r n` stands
for one constructor of `Instr` for each register (Syntax.lean); a statement over a form holds for all of them. -/

namespace Sys2Proof.Claims

open Sys2Proof.Machine

/-- Every byte of memory reads as before. -/
def SameMem (s t : State) : Prop := ∀ x, t.mem.read x = s.mem.read x

/-- Every general register but the listed ones is unchanged. -/
def SameRegsBut (rs : List Reg) (s t : State) : Prop := ∀ q, q ∉ rs → t.reg q = s.reg q

/-- The yield counter and the record of events after a completed step that is not `HALT` and whose instruction emitted
`evs` (46_execution_loop.md R202). The list of events is the model's record, log 7. -/
def Counted (evs : List Event) (s t : State) : Prop :=
  (s.icount + 1 = s.cfg.renderPeriod → t.icount = 0 ∧ t.events = .renderYield :: (evs ++ s.events)) ∧
  (s.icount + 1 ≠ s.cfg.renderPeriod → t.icount = s.icount + 1 ∧ t.events = evs ++ s.events)

/-- What every completed step but `HALT` leaves alone, whatever its instruction: the run state, the fault record, the
straps; and the counting of the step, which emitted no event of its own. -/
def KeepsControl (s t : State) : Prop := t.run = s.run ∧ t.fault = s.fault ∧ t.cfg = s.cfg ∧ Counted [] s t

/-- The state after `BoundsFault(x)` of an instruction whose opcode byte is `op`: the fault record and the run state, and
nothing else (R200, the spec's decision D9). That it is a next state is log 5. -/
def faultedAt (x : Int) (op : Byte) (s : State) : State :=
  { s with run := .faulted, fault := { addr := x, pc := s.pc, op := op } }

/-- The flags of an addition, each by its own formula (40_flag_derivation.md R110). -/
def AddFlags (a b : Byte) (f : Flags) : Prop :=
  (f.zero = true ↔ (a.toNat + b.toNat) % 256 = 0) ∧ (f.sign = true ↔ 128 ≤ (a.toNat + b.toNat) % 256) ∧
  (f.halfCarry = true ↔ a.toNat % 16 + b.toNat % 16 > 15) ∧ (f.carry = true ↔ a.toNat + b.toNat > 255) ∧
  f.negative = false ∧ f.parity = false

/-- The flags of a comparison, each by its own formula (R111). -/
def SubFlags (a b : Byte) (f : Flags) : Prop :=
  (f.zero = true ↔ a = b) ∧ (f.sign = true ↔ 128 ≤ (a.toNat + 256 - b.toNat) % 256) ∧
  (f.halfCarry = true ↔ a.toNat % 16 < b.toNat % 16) ∧ (f.carry = true ↔ a.toNat < b.toNat) ∧
  f.negative = true ∧ f.parity = false

/-- The ranges of unknown opcode bytes, as 30_encoding.md R92 lists them. -/
def unknownRanges : List (Nat × Nat) :=
  [(0x01, 0x05), (0x07, 0x0D), (0x0F, 0x10), (0x12, 0x15), (0x17, 0x1D), (0x1F, 0x20), (0x22, 0x25), (0x27, 0x2D),
   (0x2F, 0x3D), (0x3F, 0x3F), (0x86, 0x86), (0x88, 0xB7), (0xBE, 0xBE), (0xC1, 0xC1), (0xC4, 0xC7), (0xCB, 0xCC),
   (0xCE, 0xFD), (0xFF, 0xFF)]

/-- The instruction is one of those that write flags (10_state.md R28). -/
def WritesFlags (i : Instr) : Prop := (∃ r, i = .addA r) ∨ (∃ r, i = .cpReg r) ∨ ∃ n, i = .cp_n n

/-- The instruction is one of those that write memory (10_state.md R36, R40). -/
def WritesMemory (i : Instr) : Prop := (∃ r, i = .ldToMem r) ∨ ∃ nn, i = .call_nn nn

/-- The instruction is a return. -/
def IsReturn (i : Instr) : Prop := i = .ret ∨ i = .retZ ∨ i = .retNZ

/-- The step's new `PC` is not the sequential successor: `HALT`, `JP`, `CALL`, `RET`, and the conditional instructions when
taken (46_execution_loop.md R199). -/
def LeavesSequence (i : Instr) (s : State) : Prop :=
  i = .halt ∨ (∃ nn, i = .jp_nn nn) ∨ (∃ nn, i = .call_nn nn) ∨ i = .ret ∨
  (s.flags.zero = true ∧ (i = .retZ ∨ ∃ nn, i = .jpZ_nn nn)) ∨
  (s.flags.zero = false ∧ (i = .retNZ ∨ ∃ nn, i = .jpNZ_nn nn))

/-- Pushes in the order of the list. -/
def pushAll : List Word → State → Except Int State
  | [], s => .ok s
  | v :: vs, s =>
    match push v s with
    | .error x => .error x
    | .ok t => pushAll vs t

/-- That many pops, the values in the order they come. -/
def popAll : Nat → State → Except Int (List Word × State)
  | 0, s => .ok ([], s)
  | k + 1, s =>
    match pop s with
    | .error x => .error x
    | .ok (v, t) =>
      match popAll k t with
      | .error x => .error x
      | .ok (vs, u) => .ok (v :: vs, u)

/-- The core takes a step: its configuration is in range and it runs. -/
def Ready (s : State) : Prop := s.cfg.wellFormed = true ∧ s.run = .running

end Sys2Proof.Claims

open Sys2Proof Sys2Proof.Machine Sys2Proof.Claims

/-! ### Encoding -/

/-- Decoding the encoding of any instruction, with any bytes after it, gives it back with those bytes. The byte values are
the spec's assignment (log 9). -/
def Obligations.DecodeOfEncode : Prop := ∀ (i : Instr) (rest : List Byte), decode (encode i ++ rest) = .instr i rest

/-- What decodes to an instruction is that instruction's encoding, so each instruction has one encoding. -/
def Obligations.EncodeOfDecode : Prop :=
  ∀ (bytes rest : List Byte) (i : Instr), decode bytes = .instr i rest → bytes = encode i ++ rest

/-- The source's own two images, and one word of each other family, decode to the instructions the spec says (R88, R89,
95_test_vectors.md S5, S6, P4, P7). The unanchored bytes are log 9. -/
def Obligations.SpecWordsDecode : Prop :=
  decode [0x3E, 0x05] = .instr (.ldA_n 5) [] ∧ decode [0x06, 0x03] = .instr (.ldB_n 3) [] ∧
  decode [0x80] = .instr .addA_B [] ∧ decode [0x76] = .instr .halt [] ∧ decode [0xFE, 0x00] = .instr (.cp_n 0) [] ∧
  decode [0xC6, 0x05] = .unknownOpcode 0xC6 [0x05] ∧ decode [0x21, 0x00, 0x80] = .instr (.ldHL_nn 0x8000) [] ∧
  decode [0x11, 0x34, 0x12] = .instr (.ldDE_nn 0x1234) [] ∧ decode [0x77] = .instr .ldMem_A [] ∧
  decode [0x7E] = .instr .ldA_mem [] ∧ decode [0x78] = .instr .ldA_B [] ∧ decode [0xB8] = .instr .cp_B [] ∧
  decode [0xC2, 0x04, 0x00] = .instr (.jpNZ_nn 4) [] ∧ decode [0xCD, 0x10, 0x00] = .instr (.call_nn 16) [] ∧
  decode [0xC8] = .instr .retZ [] ∧ decode [0x00] = .instr .nop []

/-- The unknown opcodes are the bytes R92 lists, and there are 160 of them; an unknown byte is skipped alone, whatever
follows (R93). -/
def Obligations.UnknownOpcodeBytes : Prop :=
  (∀ op : Byte, decodeOp op = none ↔ ∃ r ∈ unknownRanges, r.1 ≤ op.toNat ∧ op.toNat ≤ r.2) ∧
  ((unknownRanges.map fun r => r.2 + 1 - r.1).sum = 160) ∧
  (∀ (op : Byte) (rest : List Byte), decodeOp op = none → decode (op :: rest) = .unknownOpcode op rest)

/-- The opcode map has 96 rows and no byte twice (R89). -/
def Obligations.OpcodeMapRows : Prop := opcodeMap.length = 96 ∧ (opcodeMap.map Prod.fst).Nodup

/-! ### The step -/

/-- When the bytes at `PC` decode to an instruction that lies inside memory, a running core's step is `exec` of it, and
nothing is added around it. -/
def Obligations.StepRunsDecodedInstruction : Prop :=
  ∀ (s : State) (i : Instr) (rest : List Byte), Ready s →
    decode [s.mem.read s.pc.toNat, s.mem.read (s.pc.toNat + 1), s.mem.read (s.pc.toNat + 2)] = .instr i rest →
    s.pc.toNat + i.length ≤ s.cfg.memSize → step s = exec i s

/-- The fetch-stage faults (R197): the opcode byte outside memory, with `fault_op` 0; then the first operand byte of a
2- or 3-byte instruction; then the second of a 3-byte one. -/
def Obligations.StepFetchFaults : Prop :=
  ∀ s : State, Ready s →
    (s.cfg.memSize ≤ s.pc.toNat → step s = .next (faultedAt s.pc.toNat 0 s)) ∧
    (∀ f, s.pc.toNat < s.cfg.memSize → decodeOp (s.mem.read s.pc.toNat) = some f →
      (2 ≤ f.length → s.cfg.memSize ≤ s.pc.toNat + 1 →
        step s = .next (faultedAt (s.pc.toNat + 1) (s.mem.read s.pc.toNat) s)) ∧
      (f.length = 3 → s.pc.toNat + 1 < s.cfg.memSize → s.cfg.memSize ≤ s.pc.toNat + 2 →
        step s = .next (faultedAt (s.pc.toNat + 2) (s.mem.read s.pc.toNat) s)))

/-- An unknown opcode is reported and skipped as one byte, changes nothing else, and counts for the cadence (R187, R222,
R202); at `0xFFFF` the fault wins and no event is emitted (R226), the spec's decision D17 against the source's "never
crashing" (90_conflicts.md C14). The event stands in the model's list, newest first; log 7. -/
def Obligations.UnknownOpcodeIsSkipped : Prop :=
  ∀ s : State, Ready s → s.pc.toNat < s.cfg.memSize → decodeOp (s.mem.read s.pc.toNat) = none →
    (s.pc.toNat < 0xFFFF →
      ∃ t, step s = .next t ∧ t.pc.toNat = s.pc.toNat + 1 ∧ SameRegsBut [] s t ∧ t.sp = s.sp ∧ t.flags = s.flags ∧
        SameMem s t ∧ t.run = .running ∧ t.fault = s.fault ∧ t.cfg = s.cfg ∧
        Counted [.unknownOpcode (s.mem.read s.pc.toNat) s.pc] s t) ∧
    (s.pc.toNat = 0xFFFF → step s = .next (faultedAt 0x10000 (s.mem.read s.pc.toNat) s))

/-- A stopped core stays as it is for any number of steps (R31, R195). That a step of a stopped core answers the same
state, and not a stop, is the model's reading; log 6. -/
def Obligations.StoppedCoreStays : Prop :=
  ∀ (k : Nat) (s : State), s.cfg.wellFormed = true → s.run ≠ .running → runFor k s = .next s

/-- A configuration outside the ranges of R7 is refused, the model's form of the spec's refusal; log 8. -/
def Obligations.BadConfigurationRefused : Prop :=
  ∀ s : State, (s.cfg.memSize = 0 ∨ 65536 < s.cfg.memSize ∨ s.cfg.renderPeriod = 0) → step s = .refused .configOutOfRange

/-- Every step of a machine in range answers a next state: ordinary data ends no run with a stop. -/
def Obligations.EveryStepAnswersNext : Prop := ∀ s : State, s.cfg.wellFormed = true → ∃ t, step s = .next t

/-! ### Reset -/

/-- The state after reset, for every configuration and image (R39, R251, R252), and that reset asserted in any state gives
it (R250). The flags, `SP` and the single kind of reset are the spec's decision D12, `icount` its decision D15. That reset
is a move of the host, `assertReset`, is the model's choice, log 11. The fault record is left open, as the spec leaves
it. -/
def Obligations.ResetValues : Prop :=
  ∀ (cfg : Config) (image : List Byte) (s : State), s = State.resetWith cfg image →
    (∀ r, s.reg r = 0x00) ∧ s.hl = 0x0000 ∧ s.de = 0x0000 ∧ s.pc = 0x0000 ∧ s.sp = cfg.spReset ∧
    Config.default.spReset = 0xFFFE ∧ s.flags = ⟨false, false, false, false, false, false⟩ ∧ s.run = .running ∧
    s.icount = 0 ∧ s.cfg = cfg ∧
    (∀ x, x < cfg.memSize → s.mem.read x = image.getD x 0x00) ∧
    ∀ before : State, before.cfg = cfg → before.assertReset image = s

/-- Reset as the host runs it: the parameters' defaults (R7) and the empty image; log 4. `RENDER_PERIOD` and the fault
record are the model's choice (log 2, log 3) and are not stated. -/
def Obligations.ResetDefaults : Prop :=
  State.reset = State.resetWith State.reset.cfg [] ∧ State.reset.cfg.memSize = 65536 ∧ State.reset.sp = 0xFFFE ∧
  State.reset.cfg.videoStart = 0x8000 ∧ State.reset.cfg.screenW = 16 ∧ State.reset.cfg.screenH = 16

/-- Reset establishes the invariant, for every configuration in range and every image; it rests on the model's values for
the fault record (log 3). -/
def Obligations.ResetMeetsInvariant : Prop :=
  State.reset.Inv ∧ ∀ (cfg : Config) (image : List Byte), cfg.wellFormed = true → (State.resetWith cfg image).Inv

/-- Every step keeps the invariant: memory canonical and inside `MEM_SIZE`, Parity false (R29), `icount` below
`RENDER_PERIOD`, `fault_addr` in `-1 .. 0x10000` (R32), `SP` an even distance from `SP_RESET`. -/
def Obligations.StepKeepsInvariant : Prop := ∀ s t : State, s.Inv → step s = .next t → t.Inv

/-! ### Flag derivation -/

/-- `deriveAdd` on the wrapped sum (R110). -/
def Obligations.DeriveAddFlags : Prop :=
  ∀ a b : Byte, AddFlags a b (deriveAdd a b (a + b)) ∧
    ((deriveAdd a b (a + b)).carry = true ↔ (a + b).toNat < a.toNat)

/-- `deriveSub` on the wrapped difference (R111). -/
def Obligations.DeriveSubFlags : Prop :=
  ∀ a b : Byte, SubFlags a b (deriveSub a b (a - b)) ∧ ((deriveSub a b (a - b)).zero = true ↔ (a - b).toNat = 0)

/-! ### The register file -/

/-- The pairs are views over their two registers (R23): a pair written is read back, its halves are the high and the low
byte, and writing one register changes its half of the pair. `D` high in `DE` is PRESUMED by the spec; log 15. -/
def Obligations.PairViews : Prop :=
  ∀ (s : State) (v : Word) (x : Byte),
    (s.setHL v).hl = v ∧ (s.setHL v).h.toNat = v.toNat / 256 ∧ (s.setHL v).l.toNat = v.toNat % 256 ∧
    (s.setDE v).de = v ∧ (s.setDE v).d.toNat = v.toNat / 256 ∧ (s.setDE v).e.toNat = v.toNat % 256 ∧
    s.hl.toNat = s.h.toNat * 256 + s.l.toNat ∧ s.de.toNat = s.d.toNat * 256 + s.e.toNat ∧
    (s.setReg .h x).hl.toNat = x.toNat * 256 + s.l.toNat ∧ (s.setReg .l x).hl.toNat = s.h.toNat * 256 + x.toNat ∧
    (s.setReg .d x).de.toNat = x.toNat * 256 + s.e.toNat ∧ (s.setReg .e x).de.toNat = s.d.toNat * 256 + x.toNat

/-! ### Memory -/

/-- The access primitives (R53, R56): inside memory a written byte is read back and no other byte, register or field
changes; at any other integer address both raise that address, unreduced. -/
def Obligations.AccessPrimitives : Prop :=
  ∀ (s : State) (x : Int) (v : Byte),
    (0 ≤ x ∧ x < s.cfg.memSize →
      memRead x s = .ok (s.mem.read x.toNat) ∧
      ∃ t, memWrite x v s = .ok t ∧ memRead x t = .ok v ∧ (∀ y, y ≠ x → memRead y t = memRead y s) ∧
        t = { s with mem := t.mem }) ∧
    (x < 0 ∨ s.cfg.memSize ≤ x → memRead x s = .error x ∧ memWrite x v s = .error x)

/-! ### The stack engine -/

/-- `push` (R121): the low byte at `SP`, the high byte at `SP - 1`, `SP` down by 2; or the first failing check's address,
`SP`, else `-1`. The layout is the spec's decision D7 (R120, 90_conflicts.md C2), the checks its decisions D8 and D9. -/
def Obligations.PushRule : Prop :=
  ∀ (v : Word) (s : State),
    (s.cfg.memSize ≤ s.sp.toNat → push v s = .error s.sp.toNat) ∧
    (s.sp.toNat < s.cfg.memSize → s.sp.toNat ≤ 1 → push v s = .error (-1)) ∧
    (s.sp.toNat < s.cfg.memSize → 2 ≤ s.sp.toNat →
      ∃ t, push v s = .ok t ∧ t.mem.read s.sp.toNat = loByte v ∧ t.mem.read (s.sp.toNat - 1) = hiByte v ∧
        t.sp.toNat = s.sp.toNat - 2 ∧ (∀ x, x ≠ s.sp.toNat → x ≠ s.sp.toNat - 1 → t.mem.read x = s.mem.read x) ∧
        t = { s with mem := t.mem, sp := t.sp })

/-- `pop` (R122): the high byte from `SP + 1`, the low byte from `SP + 2`, `SP` up by 2 and memory unchanged; or the first
of the two addresses that lies outside. The layout is the spec's decision D7, the checks its decisions D8 and D9. The
premise is the range of `MEM_SIZE` (R7; log 14). -/
def Obligations.PopRule : Prop :=
  ∀ s : State, s.cfg.memSize ≤ 65536 →
    (s.cfg.memSize ≤ s.sp.toNat + 1 → pop s = .error (s.sp.toNat + 1)) ∧
    (s.sp.toNat + 1 < s.cfg.memSize → s.cfg.memSize ≤ s.sp.toNat + 2 → pop s = .error (s.sp.toNat + 2)) ∧
    (s.sp.toNat + 2 < s.cfg.memSize →
      ∃ v t, pop s = .ok (v, t) ∧
        v.toNat = (s.mem.read (s.sp.toNat + 1)).toNat * 256 + (s.mem.read (s.sp.toNat + 2)).toNat ∧
        t.sp.toNat = s.sp.toNat + 2 ∧ t = { s with sp := t.sp })

/-- Any pushes that complete, then as many pops: the values come back in reverse order and `SP` is where it was (S4; R123,
which the spec derives from R121 and R122). -/
def Obligations.StackRoundTrip : Prop :=
  ∀ (vs : List Word) (s t : State), pushAll vs s = .ok t →
    ∃ u, popAll vs.length t = .ok (vs.reverse, u) ∧ u.sp = s.sp ∧ SameMem t u

/-! ### Loads -/

/-- `LD r,n` (R130), for all seven registers. -/
def Obligations.LoadImmediate : Prop :=
  ∀ (r : Reg) (n : Byte) (s : State),
    (s.pc.toNat + 2 ≤ 0xFFFF →
      ∃ t, exec (.ldImm r n) s = .next t ∧ t.reg r = n ∧ SameRegsBut [r] s t ∧ t.pc.toNat = s.pc.toNat + 2 ∧
        t.sp = s.sp ∧ t.flags = s.flags ∧ SameMem s t ∧ KeepsControl s t) ∧
    (0xFFFF < s.pc.toNat + 2 →
      exec (.ldImm r n) s = .next (faultedAt (s.pc.toNat + 2) (Instr.opcode (.ldImm r n)) s))

/-- `LD r,r'` (R131), for all 49 pairs of registers, the same register twice among them. -/
def Obligations.MoveRegister : Prop :=
  ∀ (dst src : Reg) (s : State),
    (s.pc.toNat + 1 ≤ 0xFFFF →
      ∃ t, exec (.ldReg dst src) s = .next t ∧ t.reg dst = s.reg src ∧ SameRegsBut [dst] s t ∧
        t.pc.toNat = s.pc.toNat + 1 ∧ t.sp = s.sp ∧ t.flags = s.flags ∧ SameMem s t ∧ KeepsControl s t) ∧
    (0xFFFF < s.pc.toNat + 1 →
      exec (.ldReg dst src) s = .next (faultedAt (s.pc.toNat + 1) (Instr.opcode (.ldReg dst src)) s))

/-- `LD r,(HL)` (R132): the byte at the old `HL`; the data check comes before the successor's (R201). -/
def Obligations.LoadFromMemory : Prop :=
  ∀ (r : Reg) (s : State),
    (s.hl.toNat < s.cfg.memSize → s.pc.toNat + 1 ≤ 0xFFFF →
      ∃ t, exec (.ldFromMem r) s = .next t ∧ t.reg r = s.mem.read s.hl.toNat ∧ SameRegsBut [r] s t ∧
        t.pc.toNat = s.pc.toNat + 1 ∧ t.sp = s.sp ∧ t.flags = s.flags ∧ SameMem s t ∧ KeepsControl s t) ∧
    (s.cfg.memSize ≤ s.hl.toNat →
      exec (.ldFromMem r) s = .next (faultedAt s.hl.toNat (Instr.opcode (.ldFromMem r)) s)) ∧
    (s.hl.toNat < s.cfg.memSize → 0xFFFF < s.pc.toNat + 1 →
      exec (.ldFromMem r) s = .next (faultedAt (s.pc.toNat + 1) (Instr.opcode (.ldFromMem r)) s))

/-- `LD (HL),r` (R133): the byte at `HL` becomes the register, and every other byte reads as before. -/
def Obligations.StoreToMemory : Prop :=
  ∀ (r : Reg) (s : State),
    (s.hl.toNat < s.cfg.memSize → s.pc.toNat + 1 ≤ 0xFFFF →
      ∃ t, exec (.ldToMem r) s = .next t ∧ t.mem.read s.hl.toNat = s.reg r ∧
        (∀ x, x ≠ s.hl.toNat → t.mem.read x = s.mem.read x) ∧ SameRegsBut [] s t ∧
        t.pc.toNat = s.pc.toNat + 1 ∧ t.sp = s.sp ∧ t.flags = s.flags ∧ KeepsControl s t) ∧
    (s.cfg.memSize ≤ s.hl.toNat →
      exec (.ldToMem r) s = .next (faultedAt s.hl.toNat (Instr.opcode (.ldToMem r)) s)) ∧
    (s.hl.toNat < s.cfg.memSize → 0xFFFF < s.pc.toNat + 1 →
      exec (.ldToMem r) s = .next (faultedAt (s.pc.toNat + 1) (Instr.opcode (.ldToMem r)) s))

/-- `LD HL,nn` (R134). -/
def Obligations.LoadPairHL : Prop :=
  ∀ (nn : Word) (s : State),
    (s.pc.toNat + 3 ≤ 0xFFFF →
      ∃ t, exec (.ldHL_nn nn) s = .next t ∧ t.h.toNat = nn.toNat / 256 ∧ t.l.toNat = nn.toNat % 256 ∧ t.hl = nn ∧
        SameRegsBut [.h, .l] s t ∧ t.pc.toNat = s.pc.toNat + 3 ∧ t.sp = s.sp ∧ t.flags = s.flags ∧ SameMem s t ∧
        KeepsControl s t) ∧
    (0xFFFF < s.pc.toNat + 3 → exec (.ldHL_nn nn) s = .next (faultedAt (s.pc.toNat + 3) 0x21 s))

/-- `LD DE,nn` (R135). -/
def Obligations.LoadPairDE : Prop :=
  ∀ (nn : Word) (s : State),
    (s.pc.toNat + 3 ≤ 0xFFFF →
      ∃ t, exec (.ldDE_nn nn) s = .next t ∧ t.d.toNat = nn.toNat / 256 ∧ t.e.toNat = nn.toNat % 256 ∧ t.de = nn ∧
        SameRegsBut [.d, .e] s t ∧ t.pc.toNat = s.pc.toNat + 3 ∧ t.sp = s.sp ∧ t.flags = s.flags ∧ SameMem s t ∧
        KeepsControl s t) ∧
    (0xFFFF < s.pc.toNat + 3 → exec (.ldDE_nn nn) s = .next (faultedAt (s.pc.toNat + 3) 0x11 s))

/-! ### Arithmetic and compare -/

/-- `ADD A,r` (R150), for all seven registers, `A` itself among them: the wrapping sum of the old values, and all six
flags. -/
def Obligations.AddToAccumulator : Prop :=
  ∀ (r : Reg) (s : State),
    (s.pc.toNat + 1 ≤ 0xFFFF →
      ∃ t, exec (.addA r) s = .next t ∧ t.a.toNat = (s.a.toNat + (s.reg r).toNat) % 256 ∧
        AddFlags s.a (s.reg r) t.flags ∧ SameRegsBut [.a] s t ∧ t.pc.toNat = s.pc.toNat + 1 ∧ t.sp = s.sp ∧
        SameMem s t ∧ KeepsControl s t) ∧
    (0xFFFF < s.pc.toNat + 1 → exec (.addA r) s = .next (faultedAt (s.pc.toNat + 1) (Instr.opcode (.addA r)) s))

/-- `CP r` (R151), for all seven registers: all six flags, and no register. -/
def Obligations.CompareRegister : Prop :=
  ∀ (r : Reg) (s : State),
    (s.pc.toNat + 1 ≤ 0xFFFF →
      ∃ t, exec (.cpReg r) s = .next t ∧ SubFlags s.a (s.reg r) t.flags ∧ SameRegsBut [] s t ∧
        t.pc.toNat = s.pc.toNat + 1 ∧ t.sp = s.sp ∧ SameMem s t ∧ KeepsControl s t) ∧
    (0xFFFF < s.pc.toNat + 1 → exec (.cpReg r) s = .next (faultedAt (s.pc.toNat + 1) (Instr.opcode (.cpReg r)) s))

/-- `CP n` (R152). -/
def Obligations.CompareImmediate : Prop :=
  ∀ (n : Byte) (s : State),
    (s.pc.toNat + 2 ≤ 0xFFFF →
      ∃ t, exec (.cp_n n) s = .next t ∧ SubFlags s.a n t.flags ∧ SameRegsBut [] s t ∧
        t.pc.toNat = s.pc.toNat + 2 ∧ t.sp = s.sp ∧ SameMem s t ∧ KeepsControl s t) ∧
    (0xFFFF < s.pc.toNat + 2 → exec (.cp_n n) s = .next (faultedAt (s.pc.toNat + 2) 0xFE s))

/-! ### Control transfer -/

/-- `JP nn` (R165): any target, at any `PC`. -/
def Obligations.JumpAlways : Prop :=
  ∀ (nn : Word) (s : State),
    ∃ t, exec (.jp_nn nn) s = .next t ∧ t.pc = nn ∧ SameRegsBut [] s t ∧ t.sp = s.sp ∧ t.flags = s.flags ∧
      SameMem s t ∧ KeepsControl s t

/-- `JP Z,nn` and `JP NZ,nn` (R166, R167): the target if the Zero flag is as named, else `PC + 3`, checked only when it is
used. -/
def Obligations.JumpConditional : Prop :=
  ∀ (nn : Word) (s : State) (i : Instr) (taken : Bool),
    (i = .jpZ_nn nn ∧ taken = s.flags.zero ∨ i = .jpNZ_nn nn ∧ taken = !s.flags.zero) →
    (taken = true ∨ s.pc.toNat + 3 ≤ 0xFFFF →
      ∃ t, exec i s = .next t ∧ (taken = true → t.pc = nn) ∧ (taken = false → t.pc.toNat = s.pc.toNat + 3) ∧
        SameRegsBut [] s t ∧ t.sp = s.sp ∧ t.flags = s.flags ∧ SameMem s t ∧ KeepsControl s t) ∧
    (taken = false → 0xFFFF < s.pc.toNat + 3 → exec i s = .next (faultedAt (s.pc.toNat + 3) i.opcode s))

/-- `CALL nn` (R168): the return address `PC + 3` on the stack, its low byte at `SP` and its high byte at `SP - 1`, `SP`
down by 2, `PC` at the target. The faults in the order of R201: the return address, `SP`, then `SP - 1` and `SP - 2`. -/
def Obligations.CallSubroutine : Prop :=
  ∀ (nn : Word) (s : State),
    (s.pc.toNat + 3 ≤ 0xFFFF → 2 ≤ s.sp.toNat → s.sp.toNat < s.cfg.memSize →
      ∃ t, exec (.call_nn nn) s = .next t ∧ t.pc = nn ∧ t.sp.toNat = s.sp.toNat - 2 ∧
        (t.mem.read s.sp.toNat).toNat = (s.pc.toNat + 3) % 256 ∧
        (t.mem.read (s.sp.toNat - 1)).toNat = (s.pc.toNat + 3) / 256 ∧
        (∀ x, x ≠ s.sp.toNat → x ≠ s.sp.toNat - 1 → t.mem.read x = s.mem.read x) ∧
        SameRegsBut [] s t ∧ t.flags = s.flags ∧ KeepsControl s t) ∧
    (0xFFFF < s.pc.toNat + 3 → exec (.call_nn nn) s = .next (faultedAt (s.pc.toNat + 3) 0xCD s)) ∧
    (s.pc.toNat + 3 ≤ 0xFFFF → s.cfg.memSize ≤ s.sp.toNat →
      exec (.call_nn nn) s = .next (faultedAt s.sp.toNat 0xCD s)) ∧
    (s.pc.toNat + 3 ≤ 0xFFFF → s.sp.toNat < s.cfg.memSize → s.sp.toNat ≤ 1 →
      exec (.call_nn nn) s = .next (faultedAt (-1) 0xCD s))

/-- `RET` (R169), and `RET Z`, `RET NZ` when taken (R170, R171): `PC` from the two bytes above `SP`, `SP` up by 2; or the
fault of the first of them outside memory. The successor is not checked. -/
def Obligations.ReturnTaken : Prop :=
  ∀ (s : State) (i : Instr), s.cfg.memSize ≤ 65536 →
    (i = .ret ∨ (i = .retZ ∧ s.flags.zero = true) ∨ (i = .retNZ ∧ s.flags.zero = false)) →
    (s.sp.toNat + 2 < s.cfg.memSize →
      ∃ t, exec i s = .next t ∧
        t.pc.toNat = (s.mem.read (s.sp.toNat + 1)).toNat * 256 + (s.mem.read (s.sp.toNat + 2)).toNat ∧
        t.sp.toNat = s.sp.toNat + 2 ∧ SameRegsBut [] s t ∧ t.flags = s.flags ∧ SameMem s t ∧ KeepsControl s t) ∧
    (s.cfg.memSize ≤ s.sp.toNat + 1 → exec i s = .next (faultedAt (s.sp.toNat + 1) i.opcode s)) ∧
    (s.sp.toNat + 1 < s.cfg.memSize → s.cfg.memSize ≤ s.sp.toNat + 2 →
      exec i s = .next (faultedAt (s.sp.toNat + 2) i.opcode s))

/-- `RET Z` and `RET NZ` when not taken (R170, R171): `PC + 1`, and the stack is not touched, so no stack fault is
possible. -/
def Obligations.ReturnNotTaken : Prop :=
  ∀ (s : State) (i : Instr),
    ((i = .retZ ∧ s.flags.zero = false) ∨ (i = .retNZ ∧ s.flags.zero = true)) →
    (s.pc.toNat + 1 ≤ 0xFFFF →
      ∃ t, exec i s = .next t ∧ t.pc.toNat = s.pc.toNat + 1 ∧ t.sp = s.sp ∧ SameRegsBut [] s t ∧
        t.flags = s.flags ∧ SameMem s t ∧ KeepsControl s t) ∧
    (0xFFFF < s.pc.toNat + 1 → exec i s = .next (faultedAt (s.pc.toNat + 1) i.opcode s))

/-- A call that completes, then a return with `SP` and the two stack bytes as the call left them: execution goes on after
the call and `SP` is what it was (S7; R168, R169). -/
def Obligations.CallThenReturn : Prop :=
  ∀ (nn : Word) (s t back : State), s.cfg.memSize ≤ 65536 → s.pc.toNat + 3 ≤ 0xFFFF →
    2 ≤ s.sp.toNat → s.sp.toNat < s.cfg.memSize → exec (.call_nn nn) s = .next t →
    back.cfg = t.cfg → back.sp = t.sp → back.mem.read s.sp.toNat = t.mem.read s.sp.toNat →
    back.mem.read (s.sp.toNat - 1) = t.mem.read (s.sp.toNat - 1) →
    ∃ u, exec .ret back = .next u ∧ u.pc.toNat = s.pc.toNat + 3 ∧ u.sp = s.sp ∧ u.run = back.run

/-! ### NOP and HALT -/

/-- `NOP` (R185). -/
def Obligations.NoOperation : Prop :=
  ∀ s : State,
    (s.pc.toNat + 1 ≤ 0xFFFF →
      ∃ t, exec .nop s = .next t ∧ t.pc.toNat = s.pc.toNat + 1 ∧ SameRegsBut [] s t ∧ t.sp = s.sp ∧
        t.flags = s.flags ∧ SameMem s t ∧ KeepsControl s t) ∧
    (0xFFFF < s.pc.toNat + 1 → exec .nop s = .next (faultedAt (s.pc.toNat + 1) 0x00 s))

/-- `HALT` (R186): the run state and one `RenderYield`, at any `PC`; `PC` keeps the address of the opcode, and nothing else
changes, the yield counter among it. -/
def Obligations.HaltStopsTheCore : Prop :=
  ∀ s : State,
    exec .halt s = .next { s with run := .halted, events := .renderYield :: s.events } ∧ encode .halt = [0x76] ∧
    decode [0x76] = .instr .halt []

/-! ### Rules over all instructions -/

/-- The flags are left untouched by every instruction but `ADD A,r`, `CP r` and `CP n`, and by the unknown opcode; those
three, when they complete, compute all six afresh, whatever the flags were (R28). -/
def Obligations.FlagsWrittenByArithmeticAlone : Prop :=
  (∀ (i : Instr) (s t : State), exec i s = .next t → ¬WritesFlags i → t.flags = s.flags) ∧
  (∀ (op : Byte) (s t : State), execUnknown op s = .next t → t.flags = s.flags) ∧
  ∀ (i : Instr) (s : State) (old : Flags), WritesFlags i → s.pc.toNat + i.length ≤ 0xFFFF →
    ∃ t u, exec i s = .next t ∧ exec i { s with flags := old } = .next u ∧ t.flags = u.flags

/-- Every byte of memory is left alone by every instruction but `LD (HL),r` and `CALL nn`, and by the unknown opcode
(R36, R40). -/
def Obligations.MemoryWrittenByStoreAndCallAlone : Prop :=
  (∀ (i : Instr) (s t : State), exec i s = .next t → ¬WritesMemory i → SameMem s t) ∧
  ∀ (op : Byte) (s t : State), execUnknown op s = .next t → SameMem s t

/-- `SP` moves by exactly 2, down by `CALL` and up by a return, and never wraps; everything else leaves it (R26). -/
def Obligations.StackPointerMovesByTwo : Prop :=
  ∀ s t : State, s.cfg.wellFormed = true → step s = .next t →
    t.sp = s.sp ∨
    (t.sp.toNat + 2 = s.sp.toNat ∧ ∃ nn, fetch s = .instr (.call_nn nn)) ∨
    (t.sp.toNat = s.sp.toNat + 2 ∧ ∃ i, IsReturn i ∧ fetch s = .instr i)

/-- The sequential successor (R199): a step of an instruction that does not leave the sequence ends in `PC + len`, or in a
fault when that exceeds `0xFFFF`; `PC` never wraps (10_state.md R25). -/
def Obligations.SequentialSuccessor : Prop :=
  ∀ (s t : State) (i : Instr), Ready s → fetch s = .instr i → ¬LeavesSequence i s → step s = .next t →
    (0xFFFF < s.pc.toNat + i.length → t.run = .faulted) ∧
    (t.run = .running → t.pc.toNat = s.pc.toNat + i.length)

/-- A running core is halted by `HALT` and by nothing else (R31, R186, R204). -/
def Obligations.HaltedByHaltAlone : Prop :=
  ∀ s t : State, Ready s → step s = .next t → (t.run = .halted ↔ fetch s = .instr .halt)

/-- Precise faults (R200, R221; the range of memory is R7's): a step that raises `BoundsFault` writes the fault record
and the run state and nothing else; the reported address lies outside memory, `fault_pc` is `PC`, and `fault_op` is the
opcode byte, or 0 when the opcode fetch itself faulted. That a fault leaves no trace is the spec's decision D9; that it
is a next state is the model's reading, log 5. -/
def Obligations.FaultsArePrecise : Prop :=
  ∀ s t : State, Ready s → step s = .next t → t.run = .faulted →
    ∃ x : Int, (x < 0 ∨ s.cfg.memSize ≤ x) ∧
      t = faultedAt x (if s.pc.toNat < s.cfg.memSize then s.mem.read s.pc.toNat else 0x00) s

/-- The yield counter and the events of a step of a running core, by how it ends (R202, R226): a faulting step emits
nothing; `HALT` emits one `RenderYield` and leaves the counter; any other step counts, an unknown opcode's own event
coming before the yield. -/
def Obligations.YieldCadence : Prop :=
  ∀ s t : State, Ready s → step s = .next t →
    (t.run = .faulted → t.icount = s.icount ∧ t.events = s.events) ∧
    (t.run = .halted → t.icount = s.icount ∧ t.events = .renderYield :: s.events) ∧
    (t.run = .running →
      (∀ i, fetch s = .instr i → Counted [] s t) ∧
      ∀ op, fetch s = .unknown op → Counted [.unknownOpcode op s.pc] s t)

/-- The yield counter, the fault record, the events and the parameters of the renderer change no result of any step (R33,
R41): two machines that agree on all the rest go on agreeing. -/
def Obligations.HiddenStateChangesNoResult : Prop :=
  ∀ s t : State, s.cfg.wellFormed = true → t.cfg.wellFormed = true → SameCore s t →
    ∃ s' t', step s = .next s' ∧ step t = .next t' ∧ SameCore s' t'

/-- A byte stored is what the very next fetch sees (R64, R257): a one-byte instruction stored over the following byte is
the next one executed. -/
def Obligations.StoreIsSeenByNextFetch : Prop :=
  ∀ (r : Reg) (s : State) (i : Instr), Ready s → s.hl.toNat = s.pc.toNat + 1 → s.hl.toNat < s.cfg.memSize →
    encode i = [s.reg r] → ∃ t, exec (.ldToMem r) s = .next t ∧ step t = exec i t

/-- A character stored in the video plane is what the renderer's view shows in its cell, and the cells at other addresses
show what they did (R59, R232). -/
def Obligations.StoreShowsInVideoPlane : Prop :=
  ∀ (r : Reg) (s : State) (x y : Nat), s.pc.toNat + 1 ≤ 0xFFFF → s.hl.toNat < s.cfg.memSize →
    x < s.cfg.screenW → y < s.cfg.screenH → videoAddr s.cfg x y = s.hl.toNat →
    ∃ t, exec (.ldToMem r) s = .next t ∧ videoCell x y t = some (s.reg r) ∧
      ∀ x' y', videoAddr s.cfg x' y' ≠ s.hl.toNat → videoCell x' y' t = videoCell x' y' s
end

