-- ==== Sys2Proof/Laws/Decode.lean ====
section
/-! SUPPORT. The decode table and the encoder, row by row: what a table lookup answers is the format of the instruction
whose encoding begins with that byte. -/

namespace Sys2Proof

/-- A lookup answers a row of the table. -/
theorem findForm_mem {op : Byte} {f : Form} : ∀ {m : List (Byte × Form)}, findForm op m = some f → (op, f) ∈ m
  | [], h => by cases h
  | (k, g) :: rest, h => by
    unfold findForm at h
    split at h
    · next e => subst e; cases h; simp
    · exact List.mem_cons_of_mem _ (findForm_mem h)

/-- A row of the table is what the encoder writes: the opcode byte, and the operand bytes of its format. -/
def RowEncodes (r : Byte × Form) : Prop :=
  match r.2 with
  | .f1 i => encode i = [r.1]
  | .f2 mk => ∀ n, encode (mk n) = [r.1, n]
  | .f3 mk => ∀ nn, encode (mk nn) = [r.1, loByte nn, hiByte nn]

theorem opcodeMap_rowEncodes : ∀ r ∈ opcodeMap, RowEncodes r := by
  have h : List.Forall RowEncodes opcodeMap := by
    repeat' (first | exact trivial | exact rfl | exact (fun _ => rfl) | refine And.intro ?_ ?_)
  exact List.forall_iff_forall_mem.1 h

/-- What the decode stage answers, said through the encoder. -/
theorem decodeOp_rowEncodes {op : Byte} {f : Form} (h : decodeOp op = some f) : RowEncodes (op, f) :=
  opcodeMap_rowEncodes _ (findForm_mem h)

end Sys2Proof
end

