-- ==== Sys2Proof/Laws/Forms.lean ====
section
/-! SUPPORT. The instructions by form: a case principle with one case per form of 30_encoding.md R89, and for each form
the opcode byte and the meaning, so that a proof about all 96 instructions has 18 cases and unfolds no arm of `exec`. -/

namespace Sys2Proof

/-- To show something of every instruction, show it of every form. -/
theorem Instr.form_cases {P : Instr → Prop} (nop : P .nop) (halt : P .halt)
    (ldImm : ∀ r n, P (.ldImm r n)) (ldDE : ∀ nn, P (.ldDE_nn nn)) (ldHL : ∀ nn, P (.ldHL_nn nn))
    (ldReg : ∀ dst src, P (.ldReg dst src)) (ldFromMem : ∀ r, P (.ldFromMem r)) (ldToMem : ∀ r, P (.ldToMem r))
    (addA : ∀ r, P (.addA r)) (cpReg : ∀ r, P (.cpReg r)) (cp_n : ∀ n, P (.cp_n n))
    (jp : ∀ nn, P (.jp_nn nn)) (jpZ : ∀ nn, P (.jpZ_nn nn)) (jpNZ : ∀ nn, P (.jpNZ_nn nn))
    (call : ∀ nn, P (.call_nn nn)) (ret : P .ret) (retZ : P .retZ) (retNZ : P .retNZ) : ∀ i, P i
  | .nop => nop
  | .ldB_n n => ldImm .b n
  | .ldC_n n => ldImm .c n
  | .ldDE_nn nn => ldDE nn
  | .ldD_n n => ldImm .d n
  | .ldE_n n => ldImm .e n
  | .ldHL_nn nn => ldHL nn
  | .ldH_n n => ldImm .h n
  | .ldL_n n => ldImm .l n
  | .ldA_n n => ldImm .a n
  | .ldB_B => ldReg .b .b
  | .ldB_C => ldReg .b .c
  | .ldB_D => ldReg .b .d
  | .ldB_E => ldReg .b .e
  | .ldB_H => ldReg .b .h
  | .ldB_L => ldReg .b .l
  | .ldB_mem => ldFromMem .b
  | .ldB_A => ldReg .b .a
  | .ldC_B => ldReg .c .b
  | .ldC_C => ldReg .c .c
  | .ldC_D => ldReg .c .d
  | .ldC_E => ldReg .c .e
  | .ldC_H => ldReg .c .h
  | .ldC_L => ldReg .c .l
  | .ldC_mem => ldFromMem .c
  | .ldC_A => ldReg .c .a
  | .ldD_B => ldReg .d .b
  | .ldD_C => ldReg .d .c
  | .ldD_D => ldReg .d .d
  | .ldD_E => ldReg .d .e
  | .ldD_H => ldReg .d .h
  | .ldD_L => ldReg .d .l
  | .ldD_mem => ldFromMem .d
  | .ldD_A => ldReg .d .a
  | .ldE_B => ldReg .e .b
  | .ldE_C => ldReg .e .c
  | .ldE_D => ldReg .e .d
  | .ldE_E => ldReg .e .e
  | .ldE_H => ldReg .e .h
  | .ldE_L => ldReg .e .l
  | .ldE_mem => ldFromMem .e
  | .ldE_A => ldReg .e .a
  | .ldH_B => ldReg .h .b
  | .ldH_C => ldReg .h .c
  | .ldH_D => ldReg .h .d
  | .ldH_E => ldReg .h .e
  | .ldH_H => ldReg .h .h
  | .ldH_L => ldReg .h .l
  | .ldH_mem => ldFromMem .h
  | .ldH_A => ldReg .h .a
  | .ldL_B => ldReg .l .b
  | .ldL_C => ldReg .l .c
  | .ldL_D => ldReg .l .d
  | .ldL_E => ldReg .l .e
  | .ldL_H => ldReg .l .h
  | .ldL_L => ldReg .l .l
  | .ldL_mem => ldFromMem .l
  | .ldL_A => ldReg .l .a
  | .ldMem_B => ldToMem .b
  | .ldMem_C => ldToMem .c
  | .ldMem_D => ldToMem .d
  | .ldMem_E => ldToMem .e
  | .ldMem_H => ldToMem .h
  | .ldMem_L => ldToMem .l
  | .halt => halt
  | .ldMem_A => ldToMem .a
  | .ldA_B => ldReg .a .b
  | .ldA_C => ldReg .a .c
  | .ldA_D => ldReg .a .d
  | .ldA_E => ldReg .a .e
  | .ldA_H => ldReg .a .h
  | .ldA_L => ldReg .a .l
  | .ldA_mem => ldFromMem .a
  | .ldA_A => ldReg .a .a
  | .addA_B => addA .b
  | .addA_C => addA .c
  | .addA_D => addA .d
  | .addA_E => addA .e
  | .addA_H => addA .h
  | .addA_L => addA .l
  | .addA_A => addA .a
  | .cp_B => cpReg .b
  | .cp_C => cpReg .c
  | .cp_D => cpReg .d
  | .cp_E => cpReg .e
  | .cp_H => cpReg .h
  | .cp_L => cpReg .l
  | .cp_A => cpReg .a
  | .retNZ => retNZ
  | .jpNZ_nn nn => jpNZ nn
  | .jp_nn nn => jp nn
  | .retZ => retZ
  | .ret => ret
  | .jpZ_nn nn => jpZ nn
  | .call_nn nn => call nn
  | .cp_n n => cp_n n

namespace Machine

/-! ### Opcode bytes -/

@[simp] theorem opcode_ldImm (r : Reg) (n : Byte) : Instr.opcode (.ldImm r n) = ldImmOpcode r := by
  cases r <;> rfl

@[simp] theorem opcode_ldReg (dst src : Reg) : Instr.opcode (.ldReg dst src) = ldRegOpcode dst src := by
  cases dst <;> cases src <;> rfl

@[simp] theorem opcode_ldFromMem (r : Reg) : Instr.opcode (.ldFromMem r) = ldFromMemOpcode r := by
  cases r <;> rfl

@[simp] theorem opcode_ldToMem (r : Reg) : Instr.opcode (.ldToMem r) = ldToMemOpcode r := by
  cases r <;> rfl

@[simp] theorem opcode_addA (r : Reg) : Instr.opcode (.addA r) = addOpcode r := by
  cases r <;> rfl

@[simp] theorem opcode_cpReg (r : Reg) : Instr.opcode (.cpReg r) = cpOpcode r := by
  cases r <;> rfl

/-! ### Meanings -/

theorem exec_ldImm (r : Reg) (n : Byte) (s : State) : exec (.ldImm r n) s = complete (ldImmOpcode r) s (loadImm r n s) := by
  cases r <;> rfl

theorem exec_ldReg (dst src : Reg) (s : State) : exec (.ldReg dst src) s = complete (ldRegOpcode dst src) s (moveReg dst src s) := by
  cases dst <;> cases src <;> rfl

theorem exec_ldFromMem (r : Reg) (s : State) : exec (.ldFromMem r) s = complete (ldFromMemOpcode r) s (loadFromHL r s) := by
  cases r <;> rfl

theorem exec_ldToMem (r : Reg) (s : State) : exec (.ldToMem r) s = complete (ldToMemOpcode r) s (storeToHL r s) := by
  cases r <;> rfl

theorem exec_addA (r : Reg) (s : State) : exec (.addA r) s = complete (addOpcode r) s (addToA (s.reg r) s) := by
  cases r <;> rfl

theorem exec_cpReg (r : Reg) (s : State) : exec (.cpReg r) s = complete (cpOpcode r) s (compareA (s.reg r) 1 s) := by
  cases r <;> rfl

theorem exec_nop (s : State) : exec .nop s = complete (Instr.opcode .nop) s (advance 1 s) := rfl

theorem exec_ldDE_nn (nn : Word) (s : State) : exec (.ldDE_nn nn) s = complete (Instr.opcode (.ldDE_nn nn)) s (loadDE nn s) := rfl

theorem exec_ldHL_nn (nn : Word) (s : State) : exec (.ldHL_nn nn) s = complete (Instr.opcode (.ldHL_nn nn)) s (loadHL nn s) := rfl

theorem exec_cp_n (n : Byte) (s : State) : exec (.cp_n n) s = complete (Instr.opcode (.cp_n n)) s (compareA n 2 s) := rfl

theorem exec_jp_nn (nn : Word) (s : State) : exec (.jp_nn nn) s = complete (Instr.opcode (.jp_nn nn)) s (.ok (jumpTo nn s)) := rfl

theorem exec_jpZ_nn (nn : Word) (s : State) : exec (.jpZ_nn nn) s = complete (Instr.opcode (.jpZ_nn nn)) s (jumpIf (condZ s) nn s) := rfl

theorem exec_jpNZ_nn (nn : Word) (s : State) : exec (.jpNZ_nn nn) s = complete (Instr.opcode (.jpNZ_nn nn)) s (jumpIf (condNZ s) nn s) := rfl

theorem exec_call_nn (nn : Word) (s : State) : exec (.call_nn nn) s = complete (Instr.opcode (.call_nn nn)) s (callTo nn s) := rfl

theorem exec_ret (s : State) : exec .ret s = complete (Instr.opcode .ret) s (returnFromCall s) := rfl

theorem exec_retZ (s : State) : exec .retZ s = complete (Instr.opcode .retZ) s (returnIf (condZ s) s) := rfl

theorem exec_retNZ (s : State) : exec .retNZ s = complete (Instr.opcode .retNZ) s (returnIf (condNZ s) s) := rfl

theorem exec_halt (s : State) : exec .halt s = .next (emit .renderYield { s with run := .halted }) := rfl

end Machine

end Sys2Proof
end

