-- ==== Sys2Proof/Laws/Memory.lean ====
section
/-! SUPPORT. The laws of memory: a byte reads back what was written last, a write leaves every other byte alone, and every
operation keeps the canonical form. The first two hold of every list, canonical or not. -/

namespace Sys2Proof.Machine

theorem Memory.read_erase_same (m : Memory) (x : Nat) : (m.erase x).read x = 0#8 := by
  induction m with
  | nil => rfl
  | cons c rest ih =>
    obtain ⟨k, v⟩ := c
    by_cases h : k = x
    · simp [Memory.erase, h, ih]
    · simp [Memory.erase, Memory.read, h, ih]

theorem Memory.read_erase_other (m : Memory) {x y : Nat} (hy : y ≠ x) : (m.erase x).read y = m.read y := by
  induction m with
  | nil => rfl
  | cons c rest ih =>
    obtain ⟨k, v⟩ := c
    by_cases h : k = x
    · subst h
      simp [Memory.erase, Memory.read, ih, Ne.symm hy]
    · simp [Memory.erase, Memory.read, h, ih]

/-- No entry of the list is for the address. -/
def Memory.lacks (m : Memory) (x : Nat) : Prop := ∀ c ∈ m, c.1 ≠ x

theorem Memory.erase_lacks (m : Memory) (x : Nat) : (m.erase x).lacks x := by
  induction m with
  | nil => simp [Memory.lacks, Memory.erase]
  | cons c rest ih =>
    obtain ⟨k, v⟩ := c
    by_cases h : k = x
    · simpa [Memory.erase, h] using ih
    · simp only [Memory.lacks, Memory.erase, if_neg h, List.mem_cons] at ih ⊢
      rintro c (rfl | hc)
      · exact h
      · exact ih c hc

theorem Memory.read_insert_same (m : Memory) (x : Nat) (v : Byte) (hm : m.lacks x) :
    (m.insert x v).read x = v := by
  induction m with
  | nil => simp [Memory.insert, Memory.read]
  | cons c rest ih =>
    obtain ⟨k, w⟩ := c
    have hk : k ≠ x := hm (k, w) (by simp)
    have hr : Memory.lacks rest x := fun c hc => hm c (by simp [hc])
    by_cases h : x < k
    · simp [Memory.insert, Memory.read, h]
    · simp [Memory.insert, Memory.read, h, hk, ih hr]

theorem Memory.read_insert_other (m : Memory) {x y : Nat} (v : Byte) (hy : y ≠ x) :
    (m.insert x v).read y = m.read y := by
  induction m with
  | nil => simp [Memory.insert, Memory.read, Ne.symm hy]
  | cons c rest ih =>
    obtain ⟨k, w⟩ := c
    by_cases h : x < k
    · simp [Memory.insert, Memory.read, h, Ne.symm hy]
    · simp [Memory.insert, Memory.read, h, ih]

/-- A byte written is read back (20_memory.md R56). -/
@[simp] theorem Memory.read_write_same (m : Memory) (x : Nat) (v : Byte) : (m.write x v).read x = v := by
  unfold Memory.write
  split
  · next h => rw [Memory.read_erase_same, h]
  · exact Memory.read_insert_same _ _ _ (Memory.erase_lacks m x)

/-- A write leaves every other byte alone. -/
theorem Memory.read_write_other (m : Memory) {x y : Nat} (v : Byte) (hy : y ≠ x) :
    (m.write x v).read y = m.read y := by
  unfold Memory.write
  split
  · exact Memory.read_erase_other m hy
  · rw [Memory.read_insert_other _ _ hy, Memory.read_erase_other m hy]

/-- A read after a write, in one equation. -/
theorem Memory.read_write (m : Memory) (x y : Nat) (v : Byte) :
    (m.write x v).read y = if y = x then v else m.read y := by
  split
  · next h => rw [h, Memory.read_write_same]
  · next h => exact Memory.read_write_other m v h

theorem Memory.wfAbove_mono {lo lo' : Nat} (h : lo' ≤ lo) (m : Memory) (hm : m.wfAbove lo = true) :
    m.wfAbove lo' = true := by
  cases m with
  | nil => rfl
  | cons c rest =>
    obtain ⟨k, v⟩ := c
    simp only [Memory.wfAbove, Bool.and_eq_true, decide_eq_true_eq] at hm ⊢
    exact ⟨⟨by omega, hm.1.2⟩, hm.2⟩

theorem Memory.wfAbove_erase (m : Memory) (lo x : Nat) (hm : m.wfAbove lo = true) :
    (m.erase x).wfAbove lo = true := by
  induction m generalizing lo with
  | nil => rfl
  | cons c rest ih =>
    obtain ⟨k, v⟩ := c
    simp only [Memory.wfAbove, Bool.and_eq_true, decide_eq_true_eq] at hm
    by_cases h : k = x
    · simpa [Memory.erase, h] using Memory.wfAbove_mono (by omega) _ (ih (k + 1) hm.2)
    · simpa [Memory.erase, Memory.wfAbove, h, hm.1.1, ih (k + 1) hm.2] using hm.1.2

theorem Memory.wfAbove_insert (m : Memory) (lo x : Nat) (v : Byte) (hx : lo ≤ x) (hv : v ≠ 0#8) (hl : m.lacks x)
    (hm : m.wfAbove lo = true) : (m.insert x v).wfAbove lo = true := by
  induction m generalizing lo with
  | nil => simpa [Memory.insert, Memory.wfAbove, hx] using hv
  | cons c rest ih =>
    obtain ⟨k, w⟩ := c
    simp only [Memory.wfAbove, Bool.and_eq_true, decide_eq_true_eq] at hm
    have hk : k ≠ x := hl (k, w) (by simp)
    have hr : Memory.lacks rest x := fun c hc => hl c (by simp [hc])
    by_cases h : x < k
    · simp only [Memory.insert, if_pos h, Memory.wfAbove, Bool.and_eq_true, decide_eq_true_eq]
      exact ⟨⟨hx, hv⟩, ⟨by omega, hm.1.2⟩, hm.2⟩
    · simp only [Memory.insert, if_neg h, Memory.wfAbove, Bool.and_eq_true, decide_eq_true_eq]
      exact ⟨hm.1, ih (k + 1) (by omega) hr hm.2⟩

/-- A write keeps the canonical form. -/
theorem Memory.wf_write (m : Memory) (x : Nat) (v : Byte) (hm : m.wf = true) : (m.write x v).wf = true := by
  unfold Memory.wf at hm ⊢
  unfold Memory.write
  split
  · exact Memory.wfAbove_erase m 0 x hm
  · next h =>
    exact Memory.wfAbove_insert _ 0 x v (Nat.zero_le x) h (Memory.erase_lacks m x) (Memory.wfAbove_erase m 0 x hm)

theorem Memory.wfAbove_ofImage (bytes : List Byte) (lo x : Nat) (hx : lo ≤ x) :
    (Memory.ofImage x bytes).wfAbove lo = true := by
  induction bytes generalizing lo x with
  | nil => rfl
  | cons v rest ih =>
    by_cases h : v = 0#8
    · simpa [Memory.ofImage, h] using ih lo (x + 1) (by omega)
    · simp [Memory.ofImage, Memory.wfAbove, h, hx, ih (x + 1) (x + 1) (Nat.le_refl _)]

/-- A loaded image is in canonical form. -/
theorem Memory.wf_ofImage (bytes : List Byte) (x : Nat) : (Memory.ofImage x bytes).wf = true :=
  Memory.wfAbove_ofImage bytes 0 x (Nat.zero_le x)

theorem Memory.below_erase (m : Memory) (bound x : Nat) (hm : m.below bound = true) :
    (m.erase x).below bound = true := by
  induction m with
  | nil => rfl
  | cons c rest ih =>
    obtain ⟨k, v⟩ := c
    simp only [Memory.below, List.all_cons, Bool.and_eq_true, decide_eq_true_eq] at hm ih ⊢
    by_cases h : k = x
    · simpa [Memory.erase, h] using ih hm.2
    · simpa [Memory.erase, h] using ⟨hm.1, by simpa using ih hm.2⟩

theorem Memory.below_insert (m : Memory) (bound x : Nat) (v : Byte) (hx : x < bound) (hm : m.below bound = true) :
    (m.insert x v).below bound = true := by
  induction m with
  | nil => simpa [Memory.insert, Memory.below] using hx
  | cons c rest ih =>
    obtain ⟨k, w⟩ := c
    simp only [Memory.below, List.all_cons, Bool.and_eq_true, decide_eq_true_eq] at hm ih ⊢
    by_cases h : x < k
    · simpa [Memory.insert, h] using ⟨hx, hm.1, by simpa using hm.2⟩
    · simpa [Memory.insert, h] using ⟨hm.1, by simpa using ih hm.2⟩

/-- A write inside the memory keeps every listed address inside it. -/
theorem Memory.below_write (m : Memory) (bound x : Nat) (v : Byte) (hx : x < bound) (hm : m.below bound = true) :
    (m.write x v).below bound = true := by
  unfold Memory.write
  split
  · exact Memory.below_erase m bound x hm
  · exact Memory.below_insert _ bound x v hx (Memory.below_erase m bound x hm)

end Sys2Proof.Machine
end

