-- ==== Sys2Proof/Laws/State.lean ====
section
/-! SUPPORT. One lemma per field per update, so that no later proof unfolds a record update. -/

namespace Sys2Proof.Machine

/-! ### Registers -/

@[simp] theorem State.reg_setReg_same (s : State) (r : Reg) (v : Byte) : (s.setReg r v).reg r = v := by
  cases r <;> rfl

theorem State.reg_setReg_other (s : State) {r q : Reg} (v : Byte) (h : q ≠ r) :
    (s.setReg r v).reg q = s.reg q := by
  cases r <;> cases q <;> first | rfl | exact absurd rfl h

@[simp] theorem State.setReg_cfg (s : State) (r : Reg) (v : Byte) : (s.setReg r v).cfg = s.cfg := by
  cases r <;> rfl

@[simp] theorem State.setReg_pc (s : State) (r : Reg) (v : Byte) : (s.setReg r v).pc = s.pc := by
  cases r <;> rfl

@[simp] theorem State.setReg_sp (s : State) (r : Reg) (v : Byte) : (s.setReg r v).sp = s.sp := by
  cases r <;> rfl

@[simp] theorem State.setReg_flags (s : State) (r : Reg) (v : Byte) : (s.setReg r v).flags = s.flags := by
  cases r <;> rfl

@[simp] theorem State.setReg_run (s : State) (r : Reg) (v : Byte) : (s.setReg r v).run = s.run := by
  cases r <;> rfl

@[simp] theorem State.setReg_fault (s : State) (r : Reg) (v : Byte) : (s.setReg r v).fault = s.fault := by
  cases r <;> rfl

@[simp] theorem State.setReg_icount (s : State) (r : Reg) (v : Byte) : (s.setReg r v).icount = s.icount := by
  cases r <;> rfl

@[simp] theorem State.setReg_mem (s : State) (r : Reg) (v : Byte) : (s.setReg r v).mem = s.mem := by
  cases r <;> rfl

@[simp] theorem State.setReg_events (s : State) (r : Reg) (v : Byte) : (s.setReg r v).events = s.events := by
  cases r <;> rfl

/-! ### The pair `HL` -/

@[simp] theorem State.setHL_h (s : State) (v : Word) : (s.setHL v).h = hiByte v := rfl

@[simp] theorem State.setHL_l (s : State) (v : Word) : (s.setHL v).l = loByte v := rfl

@[simp] theorem State.setHL_b (s : State) (v : Word) : (s.setHL v).b = s.b := rfl

@[simp] theorem State.setHL_c (s : State) (v : Word) : (s.setHL v).c = s.c := rfl

@[simp] theorem State.setHL_d (s : State) (v : Word) : (s.setHL v).d = s.d := rfl

@[simp] theorem State.setHL_e (s : State) (v : Word) : (s.setHL v).e = s.e := rfl

@[simp] theorem State.setHL_a (s : State) (v : Word) : (s.setHL v).a = s.a := rfl

@[simp] theorem State.setHL_cfg (s : State) (v : Word) : (s.setHL v).cfg = s.cfg := rfl

@[simp] theorem State.setHL_pc (s : State) (v : Word) : (s.setHL v).pc = s.pc := rfl

@[simp] theorem State.setHL_sp (s : State) (v : Word) : (s.setHL v).sp = s.sp := rfl

@[simp] theorem State.setHL_flags (s : State) (v : Word) : (s.setHL v).flags = s.flags := rfl

@[simp] theorem State.setHL_run (s : State) (v : Word) : (s.setHL v).run = s.run := rfl

@[simp] theorem State.setHL_fault (s : State) (v : Word) : (s.setHL v).fault = s.fault := rfl

@[simp] theorem State.setHL_icount (s : State) (v : Word) : (s.setHL v).icount = s.icount := rfl

@[simp] theorem State.setHL_mem (s : State) (v : Word) : (s.setHL v).mem = s.mem := rfl

@[simp] theorem State.setHL_events (s : State) (v : Word) : (s.setHL v).events = s.events := rfl

theorem State.reg_setHL_other (s : State) (v : Word) {q : Reg} (h1 : q ≠ .h) (h2 : q ≠ .l) :
    (s.setHL v).reg q = s.reg q := by
  cases q <;> first | rfl | exact absurd rfl h1 | exact absurd rfl h2

/-! ### The pair `DE` -/

@[simp] theorem State.setDE_d (s : State) (v : Word) : (s.setDE v).d = hiByte v := rfl

@[simp] theorem State.setDE_e (s : State) (v : Word) : (s.setDE v).e = loByte v := rfl

@[simp] theorem State.setDE_b (s : State) (v : Word) : (s.setDE v).b = s.b := rfl

@[simp] theorem State.setDE_c (s : State) (v : Word) : (s.setDE v).c = s.c := rfl

@[simp] theorem State.setDE_h (s : State) (v : Word) : (s.setDE v).h = s.h := rfl

@[simp] theorem State.setDE_l (s : State) (v : Word) : (s.setDE v).l = s.l := rfl

@[simp] theorem State.setDE_a (s : State) (v : Word) : (s.setDE v).a = s.a := rfl

@[simp] theorem State.setDE_cfg (s : State) (v : Word) : (s.setDE v).cfg = s.cfg := rfl

@[simp] theorem State.setDE_pc (s : State) (v : Word) : (s.setDE v).pc = s.pc := rfl

@[simp] theorem State.setDE_sp (s : State) (v : Word) : (s.setDE v).sp = s.sp := rfl

@[simp] theorem State.setDE_flags (s : State) (v : Word) : (s.setDE v).flags = s.flags := rfl

@[simp] theorem State.setDE_run (s : State) (v : Word) : (s.setDE v).run = s.run := rfl

@[simp] theorem State.setDE_fault (s : State) (v : Word) : (s.setDE v).fault = s.fault := rfl

@[simp] theorem State.setDE_icount (s : State) (v : Word) : (s.setDE v).icount = s.icount := rfl

@[simp] theorem State.setDE_mem (s : State) (v : Word) : (s.setDE v).mem = s.mem := rfl

@[simp] theorem State.setDE_events (s : State) (v : Word) : (s.setDE v).events = s.events := rfl

theorem State.reg_setDE_other (s : State) (v : Word) {q : Reg} (h1 : q ≠ .d) (h2 : q ≠ .e) :
    (s.setDE v).reg q = s.reg q := by
  cases q <;> first | rfl | exact absurd rfl h1 | exact absurd rfl h2

/-! ### Events -/

@[simp] theorem emit_events (ev : Event) (s : State) : (emit ev s).events = ev :: s.events := rfl

@[simp] theorem emit_reg (ev : Event) (s : State) (r : Reg) : (emit ev s).reg r = s.reg r := by
  cases r <;> rfl

@[simp] theorem emit_cfg (ev : Event) (s : State) : (emit ev s).cfg = s.cfg := rfl

@[simp] theorem emit_pc (ev : Event) (s : State) : (emit ev s).pc = s.pc := rfl

@[simp] theorem emit_sp (ev : Event) (s : State) : (emit ev s).sp = s.sp := rfl

@[simp] theorem emit_flags (ev : Event) (s : State) : (emit ev s).flags = s.flags := rfl

@[simp] theorem emit_run (ev : Event) (s : State) : (emit ev s).run = s.run := rfl

@[simp] theorem emit_fault (ev : Event) (s : State) : (emit ev s).fault = s.fault := rfl

@[simp] theorem emit_icount (ev : Event) (s : State) : (emit ev s).icount = s.icount := rfl

@[simp] theorem emit_mem (ev : Event) (s : State) : (emit ev s).mem = s.mem := rfl

/-! ### A jump -/

@[simp] theorem jumpTo_pc (target : Word) (s : State) : (jumpTo target s).pc = target := rfl

@[simp] theorem jumpTo_reg (target : Word) (s : State) (r : Reg) : (jumpTo target s).reg r = s.reg r := by
  cases r <;> rfl

@[simp] theorem jumpTo_cfg (target : Word) (s : State) : (jumpTo target s).cfg = s.cfg := rfl

@[simp] theorem jumpTo_sp (target : Word) (s : State) : (jumpTo target s).sp = s.sp := rfl

@[simp] theorem jumpTo_flags (target : Word) (s : State) : (jumpTo target s).flags = s.flags := rfl

@[simp] theorem jumpTo_run (target : Word) (s : State) : (jumpTo target s).run = s.run := rfl

@[simp] theorem jumpTo_fault (target : Word) (s : State) : (jumpTo target s).fault = s.fault := rfl

@[simp] theorem jumpTo_icount (target : Word) (s : State) : (jumpTo target s).icount = s.icount := rfl

@[simp] theorem jumpTo_mem (target : Word) (s : State) : (jumpTo target s).mem = s.mem := rfl

@[simp] theorem jumpTo_events (target : Word) (s : State) : (jumpTo target s).events = s.events := rfl

@[simp] theorem jumpTo_b (target : Word) (s : State) : (jumpTo target s).b = s.b := rfl

@[simp] theorem jumpTo_c (target : Word) (s : State) : (jumpTo target s).c = s.c := rfl

@[simp] theorem jumpTo_d (target : Word) (s : State) : (jumpTo target s).d = s.d := rfl

@[simp] theorem jumpTo_e (target : Word) (s : State) : (jumpTo target s).e = s.e := rfl

@[simp] theorem jumpTo_h (target : Word) (s : State) : (jumpTo target s).h = s.h := rfl

@[simp] theorem jumpTo_l (target : Word) (s : State) : (jumpTo target s).l = s.l := rfl

@[simp] theorem jumpTo_a (target : Word) (s : State) : (jumpTo target s).a = s.a := rfl

/-! ### Taking the fault -/

@[simp] theorem takeBoundsFault_run (x : Int) (op : Byte) (s : State) : (takeBoundsFault x op s).run = .faulted := rfl

@[simp] theorem takeBoundsFault_fault (x : Int) (op : Byte) (s : State) :
    (takeBoundsFault x op s).fault = ⟨x, s.pc, op⟩ := rfl

@[simp] theorem takeBoundsFault_reg (x : Int) (op : Byte) (s : State) (r : Reg) :
    (takeBoundsFault x op s).reg r = s.reg r := by
  cases r <;> rfl

@[simp] theorem takeBoundsFault_cfg (x : Int) (op : Byte) (s : State) : (takeBoundsFault x op s).cfg = s.cfg := rfl

@[simp] theorem takeBoundsFault_pc (x : Int) (op : Byte) (s : State) : (takeBoundsFault x op s).pc = s.pc := rfl

@[simp] theorem takeBoundsFault_sp (x : Int) (op : Byte) (s : State) : (takeBoundsFault x op s).sp = s.sp := rfl

@[simp] theorem takeBoundsFault_flags (x : Int) (op : Byte) (s : State) : (takeBoundsFault x op s).flags = s.flags := rfl

@[simp] theorem takeBoundsFault_icount (x : Int) (op : Byte) (s : State) : (takeBoundsFault x op s).icount = s.icount := rfl

@[simp] theorem takeBoundsFault_mem (x : Int) (op : Byte) (s : State) : (takeBoundsFault x op s).mem = s.mem := rfl

@[simp] theorem takeBoundsFault_events (x : Int) (op : Byte) (s : State) : (takeBoundsFault x op s).events = s.events := rfl

/-! ### The end of a step: everything but `icount` and `events` stays -/

@[simp] theorem retire_reg (s : State) (r : Reg) : (retire s).reg r = s.reg r := by
  unfold retire; split <;> cases r <;> rfl

@[simp] theorem retire_b (s : State) : (retire s).b = s.b := by
  unfold retire; split <;> rfl

@[simp] theorem retire_c (s : State) : (retire s).c = s.c := by
  unfold retire; split <;> rfl

@[simp] theorem retire_d (s : State) : (retire s).d = s.d := by
  unfold retire; split <;> rfl

@[simp] theorem retire_e (s : State) : (retire s).e = s.e := by
  unfold retire; split <;> rfl

@[simp] theorem retire_h (s : State) : (retire s).h = s.h := by
  unfold retire; split <;> rfl

@[simp] theorem retire_l (s : State) : (retire s).l = s.l := by
  unfold retire; split <;> rfl

@[simp] theorem retire_a (s : State) : (retire s).a = s.a := by
  unfold retire; split <;> rfl

@[simp] theorem retire_cfg (s : State) : (retire s).cfg = s.cfg := by
  unfold retire; split <;> rfl

@[simp] theorem retire_pc (s : State) : (retire s).pc = s.pc := by
  unfold retire; split <;> rfl

@[simp] theorem retire_sp (s : State) : (retire s).sp = s.sp := by
  unfold retire; split <;> rfl

@[simp] theorem retire_flags (s : State) : (retire s).flags = s.flags := by
  unfold retire; split <;> rfl

@[simp] theorem retire_run (s : State) : (retire s).run = s.run := by
  unfold retire; split <;> rfl

@[simp] theorem retire_fault (s : State) : (retire s).fault = s.fault := by
  unfold retire; split <;> rfl

@[simp] theorem retire_mem (s : State) : (retire s).mem = s.mem := by
  unfold retire; split <;> rfl

end Sys2Proof.Machine
end

