-- ==== Sys2Proof/Laws/Ops.lean ====
section
/-! SUPPORT. For each shared operation, once, everything it can do. -/

namespace Sys2Proof.Machine

theorem inMemory_iff (s : State) (x : Int) : inMemory s x = true ↔ 0 ≤ x ∧ x < s.cfg.memSize := by
  simp [inMemory]

theorem memRead_of_inMemory {s : State} {x : Int} (h : 0 ≤ x ∧ x < s.cfg.memSize) :
    memRead x s = .ok (s.mem.read x.toNat) := by
  rw [memRead, if_pos ((inMemory_iff s x).2 h)]

theorem memRead_of_not {s : State} {x : Int} (h : ¬(0 ≤ x ∧ x < s.cfg.memSize)) : memRead x s = .error x := by
  rw [memRead, if_neg (by rwa [inMemory_iff])]

theorem memWrite_of_inMemory {s : State} {x : Int} (v : Byte) (h : 0 ≤ x ∧ x < s.cfg.memSize) :
    memWrite x v s = .ok { s with mem := s.mem.write x.toNat v } := by
  rw [memWrite, if_pos ((inMemory_iff s x).2 h)]

theorem memWrite_of_not {s : State} {x : Int} (v : Byte) (h : ¬(0 ≤ x ∧ x < s.cfg.memSize)) :
    memWrite x v s = .error x := by
  rw [memWrite, if_neg (by rwa [inMemory_iff])]

/-- A read that answers a byte: the address was inside, and the byte is memory's. -/
theorem memRead_eq_ok {s : State} {x : Int} {v : Byte} (h : memRead x s = .ok v) :
    (0 ≤ x ∧ x < s.cfg.memSize) ∧ v = s.mem.read x.toNat := by
  by_cases hx : 0 ≤ x ∧ x < s.cfg.memSize
  · rw [memRead_of_inMemory hx] at h
    exact ⟨hx, (Except.ok.inj h).symm⟩
  · rw [memRead_of_not hx] at h
    cases h

/-- A read that raises: the address was outside, and it is the one reported. -/
theorem memRead_eq_error {s : State} {x y : Int} (h : memRead x s = .error y) :
    ¬(0 ≤ x ∧ x < s.cfg.memSize) ∧ y = x := by
  by_cases hx : 0 ≤ x ∧ x < s.cfg.memSize
  · rw [memRead_of_inMemory hx] at h
    cases h
  · rw [memRead_of_not hx] at h
    exact ⟨hx, (Except.error.inj h).symm⟩

theorem memWrite_eq_ok {s t : State} {x : Int} {v : Byte} (h : memWrite x v s = .ok t) :
    (0 ≤ x ∧ x < s.cfg.memSize) ∧ t = { s with mem := s.mem.write x.toNat v } := by
  by_cases hx : 0 ≤ x ∧ x < s.cfg.memSize
  · rw [memWrite_of_inMemory v hx] at h
    exact ⟨hx, (Except.ok.inj h).symm⟩
  · rw [memWrite_of_not v hx] at h
    cases h

theorem memWrite_eq_error {s : State} {x y : Int} {v : Byte} (h : memWrite x v s = .error y) :
    ¬(0 ≤ x ∧ x < s.cfg.memSize) ∧ y = x := by
  by_cases hx : 0 ≤ x ∧ x < s.cfg.memSize
  · rw [memWrite_of_inMemory v hx] at h
    cases h
  · rw [memWrite_of_not v hx] at h
    exact ⟨hx, (Except.error.inj h).symm⟩

/-- A sum that fits 16 bits does not wrap. -/
theorem word_add_toNat {p : Word} {k : Nat} (h : p.toNat + k ≤ 0xFFFF) :
    (p + BitVec.ofNat 16 k).toNat = p.toNat + k := by
  rw [BitVec.toNat_add, BitVec.toNat_ofNat]
  omega

theorem advance_of_fits {len : Nat} {t : State} (h : t.pc.toNat + len ≤ 0xFFFF) :
    advance len t = .ok (jumpTo (t.pc + BitVec.ofNat 16 len) t) := by
  rw [advance, if_neg (by omega)]

theorem advance_of_not {len : Nat} {t : State} (h : 0xFFFF < t.pc.toNat + len) :
    advance len t = .error (t.pc.toNat + len) := by
  rw [advance, if_pos h]

theorem advance_eq_ok {len : Nat} {t u : State} (h : advance len t = .ok u) :
    t.pc.toNat + len ≤ 0xFFFF ∧ u = jumpTo (t.pc + BitVec.ofNat 16 len) t := by
  by_cases hx : t.pc.toNat + len ≤ 0xFFFF
  · rw [advance_of_fits hx] at h
    exact ⟨hx, (Except.ok.inj h).symm⟩
  · rw [advance_of_not (by omega)] at h
    cases h

theorem advance_eq_error {len : Nat} {t : State} {y : Int} (h : advance len t = .error y) :
    0xFFFF < t.pc.toNat + len ∧ y = t.pc.toNat + len := by
  by_cases hx : t.pc.toNat + len ≤ 0xFFFF
  · rw [advance_of_fits hx] at h
    cases h
  · rw [advance_of_not (by omega)] at h
    exact ⟨by omega, (Except.error.inj h).symm⟩

/-- A push that completes: the three checks held, two bytes of memory and `SP` changed, and nothing else. -/
theorem push_eq_ok {v : Word} {s t : State} (h : push v s = .ok t) :
    2 ≤ s.sp.toNat ∧ s.sp.toNat < s.cfg.memSize ∧
      t = { s with mem := (s.mem.write s.sp.toNat (loByte v)).write (s.sp.toNat - 1) (hiByte v), sp := s.sp - 2 } := by
  unfold push at h
  dsimp only at h
  split at h
  · cases h
  · next s1 h1 =>
    obtain ⟨hin, rfl⟩ := memWrite_eq_ok h1
    split at h
    · cases h
    · next s2 h2 =>
      obtain ⟨hin2, rfl⟩ := memWrite_eq_ok h2
      split at h
      · cases h
      · have e : ((s.sp.toNat : Int) - 1).toNat = s.sp.toNat - 1 := by omega
        refine ⟨by omega, by omega, ?_⟩
        rw [← Except.ok.inj h, e]
        rfl

/-- A push that raises: which of the checks failed first, and the address it reports. -/
theorem push_eq_error {v : Word} {s : State} {y : Int} (h : push v s = .error y) :
    (s.cfg.memSize ≤ s.sp.toNat ∧ y = s.sp.toNat) ∨
      (s.sp.toNat < s.cfg.memSize ∧ s.sp.toNat ≤ 1 ∧ y = -1) := by
  unfold push at h
  dsimp only at h
  split at h
  · next x h1 =>
    obtain ⟨hin, rfl⟩ := memWrite_eq_error h1
    exact .inl ⟨by omega, (Except.error.inj h).symm⟩
  · next s1 h1 =>
    obtain ⟨hin, rfl⟩ := memWrite_eq_ok h1
    split at h
    · next x h2 =>
      obtain ⟨hin2, rfl⟩ := memWrite_eq_error h2
      have e := Except.error.inj h
      simp only at hin2
      exact .inr ⟨by omega, by omega, by omega⟩
    · next s2 h2 =>
      obtain ⟨hin2, rfl⟩ := memWrite_eq_ok h2
      split at h
      · have e := Except.error.inj h
        exact .inr ⟨by omega, by omega, by omega⟩
      · cases h

/-- A pop that completes: both bytes were inside memory, the value is the joined bytes, and only `SP` changed. -/
theorem pop_eq_ok {s t : State} {v : Word} (h : pop s = .ok (v, t)) :
    s.sp.toNat + 2 < s.cfg.memSize ∧
      v = joinBytes (s.mem.read (s.sp.toNat + 1)) (s.mem.read (s.sp.toNat + 2)) ∧ t = { s with sp := s.sp + 2 } := by
  unfold pop at h
  dsimp only at h
  split at h
  · cases h
  · next hi h1 =>
    obtain ⟨hin, rfl⟩ := memRead_eq_ok h1
    split at h
    · cases h
    · next lo h2 =>
      obtain ⟨hin2, rfl⟩ := memRead_eq_ok h2
      have e := Except.ok.inj h
      refine ⟨by omega, ?_, (congrArg Prod.snd e).symm⟩
      exact (congrArg Prod.fst e).symm

/-- A pop that raises: the first of the two addresses that is outside. -/
theorem pop_eq_error {s : State} {y : Int} (h : pop s = .error y) :
    (s.cfg.memSize ≤ s.sp.toNat + 1 ∧ y = s.sp.toNat + 1) ∨
      (s.sp.toNat + 1 < s.cfg.memSize ∧ s.cfg.memSize ≤ s.sp.toNat + 2 ∧ y = s.sp.toNat + 2) := by
  unfold pop at h
  dsimp only at h
  split at h
  · next x h1 =>
    obtain ⟨hin, rfl⟩ := memRead_eq_error h1
    exact .inl ⟨by omega, (Except.error.inj h).symm⟩
  · next hi h1 =>
    obtain ⟨hin, rfl⟩ := memRead_eq_ok h1
    split at h
    · next x h2 =>
      obtain ⟨hin2, rfl⟩ := memRead_eq_error h2
      exact .inr ⟨by omega, by omega, (Except.error.inj h).symm⟩
    · cases h

/-- The end of a step always answers a next state: the fault taken, or the writes committed. -/
theorem complete_eq_next {op : Byte} {s t : State} {r : Except Int State} (h : complete op s r = .next t) :
    (∃ x, r = .error x ∧ t = takeBoundsFault x op s) ∨ (∃ u, r = .ok u ∧ t = retire u) := by
  cases r with
  | error x => exact .inl ⟨x, rfl, (Host.Outcome.next.inj h).symm⟩
  | ok u => exact .inr ⟨u, rfl, (Host.Outcome.next.inj h).symm⟩

end Sys2Proof.Machine
end

