-- ==== Sys2Proof/Laws/PerInstr.lean ====
section
/-! SUPPORT. The families of lemmas proved for each constructor of `Instr`. -/

namespace Sys2Proof.Laws

/-- The table's row for the instruction's opcode byte has the instruction's length (30_encoding.md R81, R89), and that
length is 1, 2 or 3. -/
def EncodedLength.Statement (i : Instr) : Prop :=
  (decodeOp i.opcode).map Form.length = some i.length ∧ 1 ≤ i.length ∧ i.length ≤ 3

theorem EncodedLength.nop : EncodedLength.Statement .nop := ⟨rfl, by decide⟩

theorem EncodedLength.ldB_n (n : Byte) : EncodedLength.Statement (.ldB_n n) :=
  ⟨rfl, Nat.le_of_ble_eq_true rfl, Nat.le_of_ble_eq_true rfl⟩

theorem EncodedLength.ldC_n (n : Byte) : EncodedLength.Statement (.ldC_n n) :=
  ⟨rfl, Nat.le_of_ble_eq_true rfl, Nat.le_of_ble_eq_true rfl⟩

theorem EncodedLength.ldDE_nn (nn : Word) : EncodedLength.Statement (.ldDE_nn nn) :=
  ⟨rfl, Nat.le_of_ble_eq_true rfl, Nat.le_of_ble_eq_true rfl⟩

theorem EncodedLength.ldD_n (n : Byte) : EncodedLength.Statement (.ldD_n n) :=
  ⟨rfl, Nat.le_of_ble_eq_true rfl, Nat.le_of_ble_eq_true rfl⟩

theorem EncodedLength.ldE_n (n : Byte) : EncodedLength.Statement (.ldE_n n) :=
  ⟨rfl, Nat.le_of_ble_eq_true rfl, Nat.le_of_ble_eq_true rfl⟩

theorem EncodedLength.ldHL_nn (nn : Word) : EncodedLength.Statement (.ldHL_nn nn) :=
  ⟨rfl, Nat.le_of_ble_eq_true rfl, Nat.le_of_ble_eq_true rfl⟩

theorem EncodedLength.ldH_n (n : Byte) : EncodedLength.Statement (.ldH_n n) :=
  ⟨rfl, Nat.le_of_ble_eq_true rfl, Nat.le_of_ble_eq_true rfl⟩

theorem EncodedLength.ldL_n (n : Byte) : EncodedLength.Statement (.ldL_n n) :=
  ⟨rfl, Nat.le_of_ble_eq_true rfl, Nat.le_of_ble_eq_true rfl⟩

theorem EncodedLength.ldA_n (n : Byte) : EncodedLength.Statement (.ldA_n n) :=
  ⟨rfl, Nat.le_of_ble_eq_true rfl, Nat.le_of_ble_eq_true rfl⟩

theorem EncodedLength.ldB_B : EncodedLength.Statement .ldB_B := ⟨rfl, by decide⟩

theorem EncodedLength.ldB_C : EncodedLength.Statement .ldB_C := ⟨rfl, by decide⟩

theorem EncodedLength.ldB_D : EncodedLength.Statement .ldB_D := ⟨rfl, by decide⟩

theorem EncodedLength.ldB_E : EncodedLength.Statement .ldB_E := ⟨rfl, by decide⟩

theorem EncodedLength.ldB_H : EncodedLength.Statement .ldB_H := ⟨rfl, by decide⟩

theorem EncodedLength.ldB_L : EncodedLength.Statement .ldB_L := ⟨rfl, by decide⟩

theorem EncodedLength.ldB_mem : EncodedLength.Statement .ldB_mem := ⟨rfl, by decide⟩

theorem EncodedLength.ldB_A : EncodedLength.Statement .ldB_A := ⟨rfl, by decide⟩

theorem EncodedLength.ldC_B : EncodedLength.Statement .ldC_B := ⟨rfl, by decide⟩

theorem EncodedLength.ldC_C : EncodedLength.Statement .ldC_C := ⟨rfl, by decide⟩

theorem EncodedLength.ldC_D : EncodedLength.Statement .ldC_D := ⟨rfl, by decide⟩

theorem EncodedLength.ldC_E : EncodedLength.Statement .ldC_E := ⟨rfl, by decide⟩

theorem EncodedLength.ldC_H : EncodedLength.Statement .ldC_H := ⟨rfl, by decide⟩

theorem EncodedLength.ldC_L : EncodedLength.Statement .ldC_L := ⟨rfl, by decide⟩

theorem EncodedLength.ldC_mem : EncodedLength.Statement .ldC_mem := ⟨rfl, by decide⟩

theorem EncodedLength.ldC_A : EncodedLength.Statement .ldC_A := ⟨rfl, by decide⟩

theorem EncodedLength.ldD_B : EncodedLength.Statement .ldD_B := ⟨rfl, by decide⟩

theorem EncodedLength.ldD_C : EncodedLength.Statement .ldD_C := ⟨rfl, by decide⟩

theorem EncodedLength.ldD_D : EncodedLength.Statement .ldD_D := ⟨rfl, by decide⟩

theorem EncodedLength.ldD_E : EncodedLength.Statement .ldD_E := ⟨rfl, by decide⟩

theorem EncodedLength.ldD_H : EncodedLength.Statement .ldD_H := ⟨rfl, by decide⟩

theorem EncodedLength.ldD_L : EncodedLength.Statement .ldD_L := ⟨rfl, by decide⟩

theorem EncodedLength.ldD_mem : EncodedLength.Statement .ldD_mem := ⟨rfl, by decide⟩

theorem EncodedLength.ldD_A : EncodedLength.Statement .ldD_A := ⟨rfl, by decide⟩

theorem EncodedLength.ldE_B : EncodedLength.Statement .ldE_B := ⟨rfl, by decide⟩

theorem EncodedLength.ldE_C : EncodedLength.Statement .ldE_C := ⟨rfl, by decide⟩

theorem EncodedLength.ldE_D : EncodedLength.Statement .ldE_D := ⟨rfl, by decide⟩

theorem EncodedLength.ldE_E : EncodedLength.Statement .ldE_E := ⟨rfl, by decide⟩

theorem EncodedLength.ldE_H : EncodedLength.Statement .ldE_H := ⟨rfl, by decide⟩

theorem EncodedLength.ldE_L : EncodedLength.Statement .ldE_L := ⟨rfl, by decide⟩

theorem EncodedLength.ldE_mem : EncodedLength.Statement .ldE_mem := ⟨rfl, by decide⟩

theorem EncodedLength.ldE_A : EncodedLength.Statement .ldE_A := ⟨rfl, by decide⟩

theorem EncodedLength.ldH_B : EncodedLength.Statement .ldH_B := ⟨rfl, by decide⟩

theorem EncodedLength.ldH_C : EncodedLength.Statement .ldH_C := ⟨rfl, by decide⟩

theorem EncodedLength.ldH_D : EncodedLength.Statement .ldH_D := ⟨rfl, by decide⟩

theorem EncodedLength.ldH_E : EncodedLength.Statement .ldH_E := ⟨rfl, by decide⟩

theorem EncodedLength.ldH_H : EncodedLength.Statement .ldH_H := ⟨rfl, by decide⟩

theorem EncodedLength.ldH_L : EncodedLength.Statement .ldH_L := ⟨rfl, by decide⟩

theorem EncodedLength.ldH_mem : EncodedLength.Statement .ldH_mem := ⟨rfl, by decide⟩

theorem EncodedLength.ldH_A : EncodedLength.Statement .ldH_A := ⟨rfl, by decide⟩

theorem EncodedLength.ldL_B : EncodedLength.Statement .ldL_B := ⟨rfl, by decide⟩

theorem EncodedLength.ldL_C : EncodedLength.Statement .ldL_C := ⟨rfl, by decide⟩

theorem EncodedLength.ldL_D : EncodedLength.Statement .ldL_D := ⟨rfl, by decide⟩

theorem EncodedLength.ldL_E : EncodedLength.Statement .ldL_E := ⟨rfl, by decide⟩

theorem EncodedLength.ldL_H : EncodedLength.Statement .ldL_H := ⟨rfl, by decide⟩

theorem EncodedLength.ldL_L : EncodedLength.Statement .ldL_L := ⟨rfl, by decide⟩

theorem EncodedLength.ldL_mem : EncodedLength.Statement .ldL_mem := ⟨rfl, by decide⟩

theorem EncodedLength.ldL_A : EncodedLength.Statement .ldL_A := ⟨rfl, by decide⟩

theorem EncodedLength.ldMem_B : EncodedLength.Statement .ldMem_B := ⟨rfl, by decide⟩

theorem EncodedLength.ldMem_C : EncodedLength.Statement .ldMem_C := ⟨rfl, by decide⟩

theorem EncodedLength.ldMem_D : EncodedLength.Statement .ldMem_D := ⟨rfl, by decide⟩

theorem EncodedLength.ldMem_E : EncodedLength.Statement .ldMem_E := ⟨rfl, by decide⟩

theorem EncodedLength.ldMem_H : EncodedLength.Statement .ldMem_H := ⟨rfl, by decide⟩

theorem EncodedLength.ldMem_L : EncodedLength.Statement .ldMem_L := ⟨rfl, by decide⟩

theorem EncodedLength.halt : EncodedLength.Statement .halt := ⟨rfl, by decide⟩

theorem EncodedLength.ldMem_A : EncodedLength.Statement .ldMem_A := ⟨rfl, by decide⟩

theorem EncodedLength.ldA_B : EncodedLength.Statement .ldA_B := ⟨rfl, by decide⟩

theorem EncodedLength.ldA_C : EncodedLength.Statement .ldA_C := ⟨rfl, by decide⟩

theorem EncodedLength.ldA_D : EncodedLength.Statement .ldA_D := ⟨rfl, by decide⟩

theorem EncodedLength.ldA_E : EncodedLength.Statement .ldA_E := ⟨rfl, by decide⟩

theorem EncodedLength.ldA_H : EncodedLength.Statement .ldA_H := ⟨rfl, by decide⟩

theorem EncodedLength.ldA_L : EncodedLength.Statement .ldA_L := ⟨rfl, by decide⟩

theorem EncodedLength.ldA_mem : EncodedLength.Statement .ldA_mem := ⟨rfl, by decide⟩

theorem EncodedLength.ldA_A : EncodedLength.Statement .ldA_A := ⟨rfl, by decide⟩

theorem EncodedLength.addA_B : EncodedLength.Statement .addA_B := ⟨rfl, by decide⟩

theorem EncodedLength.addA_C : EncodedLength.Statement .addA_C := ⟨rfl, by decide⟩

theorem EncodedLength.addA_D : EncodedLength.Statement .addA_D := ⟨rfl, by decide⟩

theorem EncodedLength.addA_E : EncodedLength.Statement .addA_E := ⟨rfl, by decide⟩

theorem EncodedLength.addA_H : EncodedLength.Statement .addA_H := ⟨rfl, by decide⟩

theorem EncodedLength.addA_L : EncodedLength.Statement .addA_L := ⟨rfl, by decide⟩

theorem EncodedLength.addA_A : EncodedLength.Statement .addA_A := ⟨rfl, by decide⟩

theorem EncodedLength.cp_B : EncodedLength.Statement .cp_B := ⟨rfl, by decide⟩

theorem EncodedLength.cp_C : EncodedLength.Statement .cp_C := ⟨rfl, by decide⟩

theorem EncodedLength.cp_D : EncodedLength.Statement .cp_D := ⟨rfl, by decide⟩

theorem EncodedLength.cp_E : EncodedLength.Statement .cp_E := ⟨rfl, by decide⟩

theorem EncodedLength.cp_H : EncodedLength.Statement .cp_H := ⟨rfl, by decide⟩

theorem EncodedLength.cp_L : EncodedLength.Statement .cp_L := ⟨rfl, by decide⟩

theorem EncodedLength.cp_A : EncodedLength.Statement .cp_A := ⟨rfl, by decide⟩

theorem EncodedLength.retNZ : EncodedLength.Statement .retNZ := ⟨rfl, by decide⟩

theorem EncodedLength.jpNZ_nn (nn : Word) : EncodedLength.Statement (.jpNZ_nn nn) :=
  ⟨rfl, Nat.le_of_ble_eq_true rfl, Nat.le_of_ble_eq_true rfl⟩

theorem EncodedLength.jp_nn (nn : Word) : EncodedLength.Statement (.jp_nn nn) :=
  ⟨rfl, Nat.le_of_ble_eq_true rfl, Nat.le_of_ble_eq_true rfl⟩

theorem EncodedLength.retZ : EncodedLength.Statement .retZ := ⟨rfl, by decide⟩

theorem EncodedLength.ret : EncodedLength.Statement .ret := ⟨rfl, by decide⟩

theorem EncodedLength.jpZ_nn (nn : Word) : EncodedLength.Statement (.jpZ_nn nn) :=
  ⟨rfl, Nat.le_of_ble_eq_true rfl, Nat.le_of_ble_eq_true rfl⟩

theorem EncodedLength.call_nn (nn : Word) : EncodedLength.Statement (.call_nn nn) :=
  ⟨rfl, Nat.le_of_ble_eq_true rfl, Nat.le_of_ble_eq_true rfl⟩

theorem EncodedLength.cp_n (n : Byte) : EncodedLength.Statement (.cp_n n) :=
  ⟨rfl, Nat.le_of_ble_eq_true rfl, Nat.le_of_ble_eq_true rfl⟩

end Sys2Proof.Laws
end

