-- ==== Sys2Proof/Laws/Step.lean ====
section
/-! SUPPORT. The step and the fetch stage, said once. -/

namespace Sys2Proof.Machine

/-- A step of a running core in range is the fetch stage and what it fetched. -/
theorem step_of_running {s : State} (hw : s.cfg.wellFormed = true) (hr : s.run = .running) :
    step s = match fetch s with
      | .bounds x op => .next (takeBoundsFault x op s)
      | .unknown op => execUnknown op s
      | .instr i => exec i s := by
  cases h : fetch s <;> simp [step, hw, hr, h]

/-- The instruction fetched is the one whose opcode byte is at `PC`, and it lies inside memory. -/
theorem fetch_eq_instr {s : State} {i : Instr} (h : fetch s = .instr i) :
    s.mem.read s.pc.toNat = i.opcode ∧ s.pc.toNat + i.length ≤ s.cfg.memSize := by
  have of_encode : ∀ b bs, encode i = b :: bs → i.opcode = b ∧ i.length = bs.length + 1 := by
    intro b bs e
    exact ⟨by simpa [encode] using congrArg List.head? e, by rw [Instr.length, e]; rfl⟩
  unfold fetch at h
  split at h
  · cases h
  next op h0 =>
  obtain ⟨hin, rfl⟩ := memRead_eq_ok h0
  split at h
  · cases h
  next f hf =>
  have hrow := decodeOp_rowEncodes hf
  unfold fetchOperands at h
  split at h
  · cases h
    obtain ⟨ho, hl⟩ := of_encode _ _ hrow
    rw [ho, hl]
    simp at *
    omega
  · split at h
    · cases h
    next n h1 =>
    obtain ⟨hin1, rfl⟩ := memRead_eq_ok h1
    cases h
    obtain ⟨ho, hl⟩ := of_encode _ _ (hrow _)
    rw [ho, hl]
    simp at *
    omega
  · split at h
    · cases h
    next b1 h1 =>
    obtain ⟨hin1, rfl⟩ := memRead_eq_ok h1
    split at h
    · cases h
    next b2 h2 =>
    obtain ⟨hin2, rfl⟩ := memRead_eq_ok h2
    cases h
    obtain ⟨ho, hl⟩ := of_encode _ _ (hrow _)
    rw [ho, hl]
    simp at *
    omega

/-- An unknown opcode fetched is the byte at `PC`, which lies inside memory and is in no row of the table. -/
theorem fetch_eq_unknown {s : State} {op : Byte} (h : fetch s = .unknown op) :
    s.pc.toNat < s.cfg.memSize ∧ op = s.mem.read s.pc.toNat ∧ decodeOp op = none := by
  unfold fetch at h
  split at h
  · cases h
  next op' h0 =>
  obtain ⟨hin, rfl⟩ := memRead_eq_ok h0
  split at h
  · next hn => cases h; exact ⟨by omega, rfl, hn⟩
  next f hf =>
  unfold fetchOperands at h
  split at h
  · cases h
  · split at h <;> cases h
  · split at h
    · cases h
    · split at h <;> cases h

/-- A fetch-stage fault reports one of `PC`, `PC + 1`, `PC + 2`, outside memory, the byte before it inside. -/
theorem fetch_eq_bounds {s : State} {x : Int} {op : Byte} (h : fetch s = .bounds x op) :
    s.cfg.memSize ≤ x ∧
      ((x = s.pc.toNat ∧ op = 0) ∨
        (s.pc.toNat < s.cfg.memSize ∧ op = s.mem.read s.pc.toNat ∧ x ≤ s.pc.toNat + 2 ∧ x = s.cfg.memSize)) := by
  unfold fetch at h
  split at h
  · next y hy =>
    cases h
    have := memRead_eq_error hy
    exact ⟨by omega, .inl ⟨this.2, rfl⟩⟩
  next op' h0 =>
  obtain ⟨hin, rfl⟩ := memRead_eq_ok h0
  split at h
  · cases h
  next f hf =>
  unfold fetchOperands at h
  split at h
  · cases h
  · split at h
    · next y hy =>
      cases h
      have := memRead_eq_error hy
      exact ⟨by omega, .inr ⟨by omega, rfl, by omega, by omega⟩⟩
    · cases h
  · split at h
    · next y hy =>
      cases h
      have := memRead_eq_error hy
      exact ⟨by omega, .inr ⟨by omega, rfl, by omega, by omega⟩⟩
    next b1 h1 =>
    obtain ⟨hin1, rfl⟩ := memRead_eq_ok h1
    split at h
    · next y hy =>
      cases h
      have := memRead_eq_error hy
      exact ⟨by omega, .inr ⟨by omega, rfl, by omega, by omega⟩⟩
    · cases h

end Sys2Proof.Machine
end

