-- ==== Sys2Proof/Tests/Slice0.lean ====
section
/-! SUPPORT. The model's own tests: the checks of WellFormed.lean, the opcode grid of 30_encoding.md R90 row by row, single
steps from 95_test_vectors.md, and for each statement with hypotheses a concrete state that meets them. Expected values are
the spec's. -/

namespace Sys2Proof.Tests

open Sys2Proof.Machine Sys2Proof.Claims

/-! ### The static checks, each with an ill-formed configuration -/

theorem test_default_config_wellFormed : Config.default.wellFormed = true := by decide

theorem test_memSize_zero_refused : Config.memSizeOk { Config.default with memSize := 0 } = false := by decide

theorem test_memSize_65537_refused : Config.memSizeOk { Config.default with memSize := 65537 } = false := by decide

theorem test_renderPeriod_zero_refused : Config.renderPeriodOk { Config.default with renderPeriod := 0 } = false := by
  decide

theorem test_ill_formed_config_refused :
    Config.wellFormed { Config.default with memSize := 0 } = false ∧
    Config.wellFormed { Config.default with renderPeriod := 0 } = false := by decide

/-! ### Decoding: the grid of R90, high nibble by high nibble, operand bytes zero -/

/-- What the sixteen opcode bytes with a given high nibble decode to, operand bytes zero. -/
def gridRow (hi : Nat) : List (Option Instr) := (List.range 16).map fun lo => decodeTableWord 8 (16 * hi + lo)

theorem test_decode_row_0 : gridRow 0x0 =
    [some .nop, none, none, none,
     none, none, some (.ldB_n 0), none,
     none, none, none, none,
     none, none, some (.ldC_n 0), none] := by decide

theorem test_decode_row_1 : gridRow 0x1 =
    [none, some (.ldDE_nn 0), none, none,
     none, none, some (.ldD_n 0), none,
     none, none, none, none,
     none, none, some (.ldE_n 0), none] := by decide

theorem test_decode_row_2 : gridRow 0x2 =
    [none, some (.ldHL_nn 0), none, none,
     none, none, some (.ldH_n 0), none,
     none, none, none, none,
     none, none, some (.ldL_n 0), none] := by decide

theorem test_decode_row_3 : gridRow 0x3 =
    [none, none, none, none,
     none, none, none, none,
     none, none, none, none,
     none, none, some (.ldA_n 0), none] := by decide

theorem test_decode_row_4 : gridRow 0x4 =
    [some .ldB_B, some .ldB_C, some .ldB_D, some .ldB_E,
     some .ldB_H, some .ldB_L, some .ldB_mem, some .ldB_A,
     some .ldC_B, some .ldC_C, some .ldC_D, some .ldC_E,
     some .ldC_H, some .ldC_L, some .ldC_mem, some .ldC_A] := by decide

theorem test_decode_row_5 : gridRow 0x5 =
    [some .ldD_B, some .ldD_C, some .ldD_D, some .ldD_E,
     some .ldD_H, some .ldD_L, some .ldD_mem, some .ldD_A,
     some .ldE_B, some .ldE_C, some .ldE_D, some .ldE_E,
     some .ldE_H, some .ldE_L, some .ldE_mem, some .ldE_A] := by decide

theorem test_decode_row_6 : gridRow 0x6 =
    [some .ldH_B, some .ldH_C, some .ldH_D, some .ldH_E,
     some .ldH_H, some .ldH_L, some .ldH_mem, some .ldH_A,
     some .ldL_B, some .ldL_C, some .ldL_D, some .ldL_E,
     some .ldL_H, some .ldL_L, some .ldL_mem, some .ldL_A] := by decide

theorem test_decode_row_7 : gridRow 0x7 =
    [some .ldMem_B, some .ldMem_C, some .ldMem_D, some .ldMem_E,
     some .ldMem_H, some .ldMem_L, some .halt, some .ldMem_A,
     some .ldA_B, some .ldA_C, some .ldA_D, some .ldA_E,
     some .ldA_H, some .ldA_L, some .ldA_mem, some .ldA_A] := by decide

theorem test_decode_row_8 : gridRow 0x8 =
    [some .addA_B, some .addA_C, some .addA_D, some .addA_E,
     some .addA_H, some .addA_L, none, some .addA_A,
     none, none, none, none,
     none, none, none, none] := by decide

theorem test_decode_row_B : gridRow 0xB =
    [none, none, none, none,
     none, none, none, none,
     some .cp_B, some .cp_C, some .cp_D, some .cp_E,
     some .cp_H, some .cp_L, none, some .cp_A] := by decide

theorem test_decode_row_C : gridRow 0xC =
    [some .retNZ, none, some (.jpNZ_nn 0), some (.jp_nn 0),
     none, none, none, none,
     some .retZ, some .ret, some (.jpZ_nn 0), none,
     none, some (.call_nn 0), none, none] := by decide

theorem test_decode_row_F : gridRow 0xF =
    [none, none, none, none,
     none, none, none, none,
     none, none, none, none,
     none, none, some (.cp_n 0), none] := by decide

theorem test_decode_rows_without_instructions :
    [0x9, 0xA, 0xD, 0xE].map gridRow = List.replicate 4 (List.replicate 16 none) := by decide

/-- Operand bytes, little-endian (R54, R82): `LD HL,0x1234`, `LD DE,0x1234`, `CALL 0x4000`, `CP 0x14`, and the bytes
that follow are left. -/
theorem test_decode_operands :
    decode [0x21, 0x34, 0x12, 0xAA] = .instr (.ldHL_nn 0x1234) [0xAA] ∧
    decode [0x11, 0x34, 0x12] = .instr (.ldDE_nn 0x1234) [] ∧ decode [0xCD, 0x00, 0x40] = .instr (.call_nn 0x4000) [] ∧
    decode [0xFE, 0x14, 0xC2] = .instr (.cp_n 0x14) [0xC2] ∧ decode [0xCA, 0x00, 0x02] = .instr (.jpZ_nn 0x0200) [] := by
  decide

/-- Bytes that hold no whole instruction are refused, each by its own name. -/
theorem test_decode_refusals :
    decode [] = .noBytes ∧ decode [0x3E] = .truncated 0x3E ∧ decode [0xC3, 0x34] = .truncated 0xC3 ∧
    decode [0xCB, 0x7E] = .unknownOpcode 0xCB [0x7E] := by decide

/-- The bytes the rules print encode as printed (R130, R134, R151, R168). -/
theorem test_encode :
    encode (.ldA_n 5) = [0x3E, 0x05] ∧ encode (.ldHL_nn 0x8000) = [0x21, 0x00, 0x80] ∧ encode .cp_B = [0xB8] ∧
    encode (.call_nn 9) = [0xCD, 0x09, 0x00] ∧ encode .ldH_L = [0x65] := by decide

theorem test_decodeTableWord : decodeTableWord 24 0x123421 = some (.ldHL_nn 0x1234) ∧
    decodeTableWord 8 0x123421 = some (.ldHL_nn 0) ∧ decodeTableWord 8 0xC6 = none := by decide

/-! ### Single steps: 95_test_vectors.md -/

/-- The reset state at a `PC` with bytes laid down there. -/
def put (pc : Word) (bytes : List Byte) : State := placeBytes pc.toNat bytes { State.reset with pc := pc }

/-- A state with a byte more in memory. -/
def poke (x : Nat) (v : Byte) (s : State) : State := { s with mem := s.mem.write x v }

/-- The state with its Zero flag set. -/
def withZ (s : State) : State := { s with flags := { s.flags with zero := true } }

/-- The state with a memory of that size. -/
def sized (n : Nat) (s : State) : State := { s with cfg := { s.cfg with memSize := n } }

/-- A view of the state after one step. -/
def after {α : Type} (s : State) (view : State → α) : Option α :=
  match step s with
  | .next t => some (view t)
  | .fault _ => none
  | .refused _ => none

/-- The flags in the order of the tables, `Z S Hc Cy N P`. -/
def flagRow (s : State) : List Nat :=
  [s.flags.zero, s.flags.sign, s.flags.halfCarry, s.flags.carry, s.flags.negative, s.flags.parity].map Bool.toNat

/-- The fault record of a faulted core. -/
def faultOf (s : State) : Option FaultRecord := if s.run = .faulted then some s.fault else none

theorem test_addB_half_carry :
    (after { put 0 [0x80] with a := 0x0F, b := 0x01 } fun t => (t.a, t.b, t.pc, flagRow t)) =
      some (0x10, 0x01, 1, [0, 0, 1, 0, 0, 0]) := by decide

theorem test_addB_wraps :
    (after { put 0 [0x80] with a := 0xFF, b := 0x01 } fun t => (t.a, t.b, t.pc, flagRow t)) =
      some (0x00, 0x01, 1, [1, 0, 1, 1, 0, 0]) := by decide

theorem test_addA_A_80 :
    (after { put 0 [0x87] with a := 0x80 } fun t => (t.a, flagRow t)) =
      some (0x00, [1, 0, 0, 1, 0, 0]) := by decide

theorem test_addA_A_88 :
    (after { put 0 [0x87] with a := 0x88 } fun t => (t.a, flagRow t)) =
      some (0x10, [0, 0, 1, 1, 0, 0]) := by decide

/-- The register selection row of 2.1. -/
theorem test_add_selects_register :
    ([0x80, 0x81, 0x82, 0x83, 0x84, 0x85, 0x87].map fun op => after { put 0 [op] with a := 1, b := 2, c := 3, d := 4, e := 5, h := 6, l := 7 } State.a) =
      [3, 4, 5, 6, 7, 8, 2].map some := by decide

theorem test_cp_n_half_borrow :
    (after { put 0 [0xFE, 0x01] with a := 0x10 } fun t => (t.a, t.pc, flagRow t)) =
      some (0x10, 2, [0, 0, 1, 0, 1, 0]) := by decide

theorem test_cp_n_carry_without_half :
    (after { put 0 [0xFE, 0x10] with a := 0x01 } fun t => (t.a, t.pc, flagRow t)) =
      some (0x01, 2, [0, 1, 0, 1, 1, 0]) := by decide

theorem test_cp_B_less :
    (after { put 0 [0xB8] with a := 0x10, b := 0x20 } fun t => (t.a, t.pc, flagRow t)) =
      some (0x10, 1, [0, 1, 0, 1, 1, 0]) := by decide

theorem test_cp_A :
    (after { put 0 [0xBF] with a := 0x5A } fun t => (t.a, flagRow t)) =
      some (0x5A, [1, 0, 0, 0, 1, 0]) := by decide

/-- Each register is the one compared. -/
theorem test_cp_selects_register :
    ([0xB8, 0xB9, 0xBA, 0xBB, 0xBC, 0xBD, 0xBF].map fun op => after { put 0 [op] with a := 5, b := 5, c := 3, d := 5, e := 3, h := 5, l := 3 } fun t => t.flags.zero) =
      [true, false, true, false, true, false, true].map some := by decide

theorem test_ldH_n :
    (after { put 0 [0x26, 0x12] with l := 0x34 } fun t => (t.h, t.hl, t.pc)) =
      some (0x12, 0x1234, 2) := by decide

theorem test_ldL_n :
    (after { put 0 [0x2E, 0x9A] with h := 0x12 } fun t => (t.hl, t.pc)) =
      some (0x129A, 2) := by decide

/-- R130: each opcode writes its own register alone. -/
theorem test_ld_n_selects_register :
    ([0x06, 0x0E, 0x16, 0x1E, 0x26, 0x2E, 0x3E].map fun op => after (put 0 [op, 9]) fun t => [t.b, t.c, t.d, t.e, t.h, t.l, t.a]) =
      [[9, 0, 0, 0, 0, 0, 0], [0, 9, 0, 0, 0, 0, 0], [0, 0, 9, 0, 0, 0, 0], [0, 0, 0, 9, 0, 0, 0],
      [0, 0, 0, 0, 9, 0, 0], [0, 0, 0, 0, 0, 9, 0], [0, 0, 0, 0, 0, 0, 9]].map some := by decide

theorem test_ldA_B :
    (after { put 0 [0x78] with b := 0x2A } fun t => (t.a, t.b, t.pc)) =
      some (0x2A, 0x2A, 1) := by decide

theorem test_ldH_L :
    (after { put 0 [0x65] with h := 0x12, l := 0xAB } fun t => (t.h, t.hl)) =
      some (0xAB, 0xABAB) := by decide

theorem test_ldH_mem :
    (after { poke 0x8000 0x41 (put 0 [0x66]) with h := 0x80 } fun t => (t.h, t.hl, t.pc)) =
      some (0x41, 0x4100, 1) := by decide

theorem test_ldA_mem_own_opcode :
    (after (put 0 [0x7E]) fun t => (t.a, t.pc)) =
      some (0x7E, 1) := by decide

theorem test_ldMem_A :
    (after { put 0 [0x77] with h := 0x80, a := 0x48 } fun t => (t.mem.read 0x8000, t.pc)) =
      some (0x48, 1) := by decide

theorem test_ldMem_H :
    (after { put 0 [0x74] with h := 0x80, l := 0x01 } fun t => t.mem.read 0x8001) =
      some 0x80 := by decide

theorem test_ldHL_nn :
    (after (put 0 [0x21, 0x00, 0x80]) fun t => (t.h, t.l, t.pc)) =
      some (0x80, 0x00, 3) := by decide

theorem test_ldDE_nn :
    (after (put 0 [0x11, 0x34, 0x12]) fun t => (t.d, t.e, t.pc)) =
      some (0x12, 0x34, 3) := by decide

theorem test_ldA_mem_outside :
    (after (sized 0x1000 { put 0 [0x7E] with h := 0x10 }) fun t => (faultOf t, t.a, t.pc)) =
      some (some ⟨0x1000, 0, 0x7E⟩, 0, 0) := by decide

theorem test_ldMem_A_last_address :
    (after (sized 0x1000 { put 0 [0x77] with h := 0x0F, l := 0xFF, a := 0x5A }) fun t => (t.mem.read 0x0FFF, t.pc)) =
      some (0x5A, 1) := by decide

theorem test_jp :
    (after (put 3 [0xC3, 0x10, 0x00]) State.pc) =
      some 0x0010 := by decide

theorem test_jp_at_FFFD :
    (after (put 0xFFFD [0xC3, 0x34, 0x12]) State.pc) =
      some 0x1234 := by decide

theorem test_jpZ_taken :
    (after (withZ (put 0x0100 [0xCA, 0x00, 0x02])) State.pc) =
      some 0x0200 := by decide

theorem test_jpZ_not_taken :
    (after (put 0x0100 [0xCA, 0x00, 0x02]) State.pc) =
      some 0x0103 := by decide

theorem test_jpNZ_taken :
    (after (put 7 [0xC2, 0x04, 0x00]) State.pc) =
      some 0x0004 := by decide

theorem test_jpNZ_not_taken :
    (after (withZ (put 7 [0xC2, 0x04, 0x00])) State.pc) =
      some 0x000A := by decide

theorem test_call :
    (after { put 0x12FD [0xCD, 0x00, 0x40] with sp := 0x9000 } fun t =>
      (t.mem.read 0x9000, t.mem.read 0x8FFF, t.sp, t.pc)) =
      some (0x00, 0x13, 0x8FFE, 0x4000) := by decide

theorem test_call_at_top :
    (after { put 0xFFFA [0xCD, 0x34, 0x12] with sp := 0x8000 } fun t =>
      (t.mem.read 0x8000, t.mem.read 0x7FFF, t.sp, t.pc)) =
      some (0xFD, 0xFF, 0x7FFE, 0x1234) := by decide

theorem test_ret :
    (after { poke 0xFFFE 0xBB (poke 0xFFFD 0xAA (put 0x0100 [0xC9])) with sp := 0xFFFC } fun t => (t.pc, t.sp)) =
      some (0xAABB, 0xFFFE) := by decide

theorem test_ret_empty_stack :
    (after (put 0x0100 [0xC9]) fun t => (faultOf t, t.sp)) =
      some (some ⟨0x10000, 0x0100, 0xC9⟩, 0xFFFE) := by decide

theorem test_retZ_taken :
    (after (withZ { poke 0xFFFE 0x23 (poke 0xFFFD 0x01 (put 0x20 [0xC8])) with sp := 0xFFFC }) fun t => (t.pc, t.sp)) =
      some (0x0123, 0xFFFE) := by decide

theorem test_retZ_not_taken :
    (after (put 0x20 [0xC8]) fun t => (t.pc, t.sp)) =
      some (0x0021, 0xFFFE) := by decide

theorem test_retNZ_taken :
    (after { poke 0xFFFE 0x23 (poke 0xFFFD 0x01 (put 0x20 [0xC0])) with sp := 0xFFFC } fun t => (t.pc, t.sp)) =
      some (0x0123, 0xFFFE) := by decide

theorem test_retNZ_not_taken :
    (after (withZ (put 0x20 [0xC0])) fun t => (t.pc, t.sp)) =
      some (0x0021, 0xFFFE) := by decide

theorem test_nop :
    (after { put 4 [0x00] with cfg := { Config.default with renderPeriod := 2 } } fun t => (t.pc, t.icount, t.events)) =
      some (5, 1, []) := by decide

theorem test_nop_wraps_not :
    (after (put 0xFFFF [0x00]) fun t => (faultOf t, t.pc)) =
      some (some ⟨0x10000, 0xFFFF, 0x00⟩, 0xFFFF) := by decide

theorem test_halt :
    (after (put 5 [0x76]) fun t => (t.run, t.pc, t.events)) =
      some (.halted, 5, [.renderYield]) := by decide

theorem test_halt_at_FFFF :
    (after (put 0xFFFF [0x76]) fun t => (t.run, t.pc)) =
      some (.halted, 0xFFFF) := by decide

theorem test_unknown :
    (after { put 2 [0xC6] with cfg := { Config.default with renderPeriod := 9 } } fun t => (t.pc, t.run, t.events)) =
      some (3, .running, [.unknownOpcode 0xC6 2]) := by decide

theorem test_unknown_at_FFFF :
    (after (put 0xFFFF [0xFF]) fun t => (faultOf t, t.events)) =
      some (some ⟨0x10000, 0xFFFF, 0xFF⟩, []) := by decide

theorem test_operand_fetch_fault :
    (after (put 0xFFFF [0x3E]) fun t => (faultOf t, t.a)) =
      some (some ⟨0x10000, 0xFFFF, 0x3E⟩, 0) := by decide

theorem test_second_operand_fault :
    (after (put 0xFFFE [0xC3, 0x34]) faultOf) =
      some (some ⟨0x10000, 0xFFFE, 0xC3⟩) := by decide

theorem test_successor_fault :
    (after (put 0xFFFD [0xCA, 0x34, 0x12]) faultOf) =
      some (some ⟨0x10000, 0xFFFD, 0xCA⟩) := by decide

theorem test_call_return_address_fault :
    (after { put 0xFFFD [0xCD, 0x34, 0x12] with sp := 0x8000 } fun t => (faultOf t, t.mem.read 0x8000)) =
      some (some ⟨0x10000, 0xFFFD, 0xCD⟩, 0) := by decide

theorem test_call_sp_1_fault :
    (after { put 0x0100 [0xCD, 0x00, 0x02] with sp := 1 } fun t => (faultOf t, t.sp)) =
      some (some ⟨-1, 0x0100, 0xCD⟩, 1) := by decide

theorem test_opcode_fetch_fault :
    (after (sized 0x1000 (put 0x1000 [])) faultOf) =
      some (some ⟨0x1000, 0x1000, 0x00⟩) := by decide

theorem test_yield_at_period :
    (after { put 0 [0x00] with cfg := { Config.default with renderPeriod := 3 }, icount := 2 } fun t => (t.icount, t.events)) =
      some (0, [.renderYield]) := by decide

theorem test_stopped_core_stays :
    (after { put 0 [0x3E, 5] with run := .halted } fun t => (t.a, t.pc, t.run)) =
      some (0, 0, .halted) := by decide

/-- The word of `LD A,5` as the table numbers its bits. -/
theorem test_withFetchWord_runs :
    (after (State.reset.withFetchWord 16 0x053E) fun t => (t.a, t.pc)) =
      some (5, 2) := by decide

/-- R252. -/
theorem test_image_is_truncated :
    ([0, 1, 2, 3].map (State.resetWith { Config.default with memSize := 3 } [0x3E, 0x00, 0x76, 0x99]).mem.read) =
      [0x3E, 0x00, 0x76, 0x00] := by decide

/-! ### Witnesses: for each statement with hypotheses, states and operands that meet them, clause by clause -/

/-- The reset state at a `PC`. -/
def atPC (pc : Word) : State := { State.reset with pc := pc }

/-- The reset state with a stack pointer. -/
def atSP (sp : Word) : State := { State.reset with sp := sp }

/-- The reset state with an address in `HL` and a memory of that size. -/
def atHL (h l : Byte) (n : Nat) (pc : Word) : State := sized n { atPC pc with h := h, l := l }

theorem ready_put (pc : Word) (bytes : List Byte) (h : (put pc bytes).cfg.wellFormed = true)
    (h' : (put pc bytes).run = .running) : Ready (put pc bytes) := ⟨h, h'⟩

theorem witness_EncodeOfDecode : decode [0x3E, 0x05, 0x76] = .instr (.ldA_n 5) [0x76] := by decide

theorem witness_UnknownOpcodeBytes : decodeOp 0xC6 = none ∧ decodeOp 0xFF = none := ⟨rfl, rfl⟩

theorem witness_StepRunsDecodedInstruction :
    Ready (put 0xFFFE [0x3E, 0x05]) ∧
    (let s := put 0xFFFE [0x3E, 0x05]
     decode [s.mem.read s.pc.toNat, s.mem.read (s.pc.toNat + 1), s.mem.read (s.pc.toNat + 2)] = .instr (.ldA_n 5) [0] ∧
      s.pc.toNat + (Instr.ldA_n 5).length ≤ s.cfg.memSize) :=
  ⟨⟨by decide, by decide⟩, by decide⟩

theorem witness_StepFetchFaults :
    (∃ s, Ready s ∧ s.cfg.memSize ≤ s.pc.toNat) ∧
    (∃ s f, Ready s ∧ s.pc.toNat < s.cfg.memSize ∧ decodeOp (s.mem.read s.pc.toNat) = some f ∧ 2 ≤ f.length ∧
      s.cfg.memSize ≤ s.pc.toNat + 1) ∧
    ∃ s f, Ready s ∧ s.pc.toNat < s.cfg.memSize ∧ decodeOp (s.mem.read s.pc.toNat) = some f ∧ f.length = 3 ∧
      s.pc.toNat + 1 < s.cfg.memSize ∧ s.cfg.memSize ≤ s.pc.toNat + 2 :=
  ⟨⟨sized 0x1000 (atPC 0x1000), ⟨by decide, rfl⟩, by decide⟩,
   ⟨put 0xFFFF [0x3E], .f2 .ldA_n, ⟨by decide, rfl⟩, by decide, rfl, by decide, by decide⟩,
   ⟨put 0xFFFE [0xC3], .f3 .jp_nn, ⟨by decide, rfl⟩, by decide, rfl, rfl, by decide, by decide⟩⟩

theorem witness_UnknownOpcodeIsSkipped :
    (∃ s, Ready s ∧ s.pc.toNat < s.cfg.memSize ∧ decodeOp (s.mem.read s.pc.toNat) = none ∧ s.pc.toNat < 0xFFFF) ∧
    ∃ s, Ready s ∧ s.pc.toNat < s.cfg.memSize ∧ decodeOp (s.mem.read s.pc.toNat) = none ∧ s.pc.toNat = 0xFFFF :=
  ⟨⟨put 0xFFFE [0xC6], ⟨by decide, rfl⟩, by decide, rfl, by decide⟩,
   ⟨put 0xFFFF [0xC6], ⟨by decide, rfl⟩, by decide, rfl, by decide⟩⟩

theorem witness_StoppedCoreStays : ∃ s : State, s.cfg.wellFormed = true ∧ s.run ≠ .running :=
  ⟨{ State.reset with run := .faulted }, by decide, by decide⟩

theorem witness_BadConfigurationRefused :
    ∃ s t u : State, s.cfg.memSize = 0 ∧ 65536 < t.cfg.memSize ∧ u.cfg.renderPeriod = 0 :=
  ⟨sized 0 State.reset, sized 65537 State.reset,
   { State.reset with cfg := { Config.default with renderPeriod := 0 } }, rfl, by decide, rfl⟩

theorem witness_EveryStepAnswersNext : (put 0 [0x76]).cfg.wellFormed = true := by decide

theorem witness_ResetValues :
    ∃ (cfg : Config) (x : Nat) (s before : State), s = State.resetWith cfg [0x76] ∧ x < cfg.memSize ∧ before.cfg = cfg :=
  ⟨Config.default, 65535, _, put 7 [0x00], rfl, by decide, rfl⟩

theorem witness_ResetMeetsInvariant : Config.wellFormed { Config.default with memSize := 1, renderPeriod := 7 } = true := by
  decide

theorem witness_StepKeepsInvariant : ∃ s t : State, s.Inv ∧ step s = .next t :=
  ⟨put 0 [0x76], _,
   ⟨by decide, by decide, by decide, rfl, by decide, by decide, by decide, by decide⟩, rfl⟩

theorem witness_AccessPrimitives :
    ((0 : Int) ≤ 0xFFFF ∧ (0xFFFF : Int) < State.reset.cfg.memSize) ∧ ((-1 : Int) < 0) ∧
    ((State.reset.cfg.memSize : Int) ≤ 0x10000) := by decide

theorem witness_PushRule :
    (∃ s : State, s.cfg.memSize ≤ s.sp.toNat) ∧ (∃ s : State, s.sp.toNat < s.cfg.memSize ∧ s.sp.toNat ≤ 1) ∧
    ∃ s : State, s.sp.toNat < s.cfg.memSize ∧ 2 ≤ s.sp.toNat :=
  ⟨⟨sized 256 (atSP 256), by decide⟩, ⟨atSP 1, by decide⟩, ⟨atSP 2, by decide⟩⟩

theorem witness_PopRule :
    (∃ s : State, s.cfg.memSize ≤ 65536 ∧ s.cfg.memSize ≤ s.sp.toNat + 1) ∧
    (∃ s : State, s.cfg.memSize ≤ 65536 ∧ s.sp.toNat + 1 < s.cfg.memSize ∧ s.cfg.memSize ≤ s.sp.toNat + 2) ∧
    ∃ s : State, s.cfg.memSize ≤ 65536 ∧ s.sp.toNat + 2 < s.cfg.memSize :=
  ⟨⟨atSP 0xFFFF, by decide⟩, ⟨atSP 0xFFFE, by decide⟩, ⟨atSP 0xFFFD, by decide⟩⟩

theorem witness_StackRoundTrip : ∃ t, pushAll [0x1234, 0x5678] State.reset = .ok t := ⟨_, rfl⟩

theorem witness_one_byte_instructions :
    ∃ s t : State, s.pc.toNat + 1 ≤ 0xFFFF ∧ 0xFFFF < t.pc.toNat + 1 := ⟨atPC 0xFFFE, atPC 0xFFFF, by decide⟩

theorem witness_two_byte_instructions :
    ∃ s t : State, s.pc.toNat + 2 ≤ 0xFFFF ∧ 0xFFFF < t.pc.toNat + 2 := ⟨atPC 0xFFFD, atPC 0xFFFE, by decide⟩

theorem witness_three_byte_instructions :
    ∃ s t : State, s.pc.toNat + 3 ≤ 0xFFFF ∧ 0xFFFF < t.pc.toNat + 3 := ⟨atPC 0xFFFC, atPC 0xFFFD, by decide⟩

theorem witness_LoadImmediate : ∃ s t : State, s.pc.toNat + 2 ≤ 0xFFFF ∧ 0xFFFF < t.pc.toNat + 2 :=
  witness_two_byte_instructions

theorem witness_MoveRegister : ∃ s t : State, s.pc.toNat + 1 ≤ 0xFFFF ∧ 0xFFFF < t.pc.toNat + 1 :=
  witness_one_byte_instructions

theorem witness_LoadFromMemory :
    (∃ s : State, s.hl.toNat < s.cfg.memSize ∧ s.pc.toNat + 1 ≤ 0xFFFF) ∧ (∃ s : State, s.cfg.memSize ≤ s.hl.toNat) ∧
    ∃ s : State, s.hl.toNat < s.cfg.memSize ∧ 0xFFFF < s.pc.toNat + 1 :=
  ⟨⟨atHL 0x0F 0xFF 0x1000 0xFFFE, by decide⟩, ⟨atHL 0x10 0x00 0x1000 0, by decide⟩,
   ⟨atHL 0xFF 0xFF 65536 0xFFFF, by decide⟩⟩

theorem witness_StoreToMemory :
    (∃ s : State, s.hl.toNat < s.cfg.memSize ∧ s.pc.toNat + 1 ≤ 0xFFFF) ∧ (∃ s : State, s.cfg.memSize ≤ s.hl.toNat) ∧
    ∃ s : State, s.hl.toNat < s.cfg.memSize ∧ 0xFFFF < s.pc.toNat + 1 := witness_LoadFromMemory

theorem witness_LoadPairHL : ∃ s t : State, s.pc.toNat + 3 ≤ 0xFFFF ∧ 0xFFFF < t.pc.toNat + 3 :=
  witness_three_byte_instructions

theorem witness_LoadPairDE : ∃ s t : State, s.pc.toNat + 3 ≤ 0xFFFF ∧ 0xFFFF < t.pc.toNat + 3 :=
  witness_three_byte_instructions

theorem witness_AddToAccumulator : ∃ s t : State, s.pc.toNat + 1 ≤ 0xFFFF ∧ 0xFFFF < t.pc.toNat + 1 :=
  witness_one_byte_instructions

theorem witness_CompareRegister : ∃ s t : State, s.pc.toNat + 1 ≤ 0xFFFF ∧ 0xFFFF < t.pc.toNat + 1 :=
  witness_one_byte_instructions

theorem witness_CompareImmediate : ∃ s t : State, s.pc.toNat + 2 ≤ 0xFFFF ∧ 0xFFFF < t.pc.toNat + 2 :=
  witness_two_byte_instructions

theorem witness_NoOperation : ∃ s t : State, s.pc.toNat + 1 ≤ 0xFFFF ∧ 0xFFFF < t.pc.toNat + 1 :=
  witness_one_byte_instructions

/-- Taken at the top of memory, not taken where the successor fits, not taken where it does not; both instructions. -/
theorem witness_JumpConditional :
    ((withZ (atPC 0xFFFD)).flags.zero = true ∧ (atPC 0xFFFD).flags.zero = false) ∧
    ((atPC 0xFFFC).flags.zero = false ∧ (atPC 0xFFFC).pc.toNat + 3 ≤ 0xFFFF) ∧
    ((withZ (atPC 0xFFFC)).flags.zero = true ∧ (withZ (atPC 0xFFFC)).pc.toNat + 3 ≤ 0xFFFF) ∧
    0xFFFF < (atPC 0xFFFD).pc.toNat + 3 ∧ 0xFFFF < (withZ (atPC 0xFFFD)).pc.toNat + 3 := by decide

theorem witness_CallSubroutine :
    (∃ s : State, s.pc.toNat + 3 ≤ 0xFFFF ∧ 2 ≤ s.sp.toNat ∧ s.sp.toNat < s.cfg.memSize) ∧
    (∃ s : State, 0xFFFF < s.pc.toNat + 3) ∧ (∃ s : State, s.pc.toNat + 3 ≤ 0xFFFF ∧ s.cfg.memSize ≤ s.sp.toNat) ∧
    ∃ s : State, s.pc.toNat + 3 ≤ 0xFFFF ∧ s.sp.toNat < s.cfg.memSize ∧ s.sp.toNat ≤ 1 :=
  ⟨⟨{ atSP 2 with pc := 0xFFFC }, by decide⟩, ⟨atPC 0xFFFD, by decide⟩, ⟨sized 256 (atSP 256), by decide⟩,
   ⟨atSP 1, by decide⟩⟩

theorem witness_ReturnTaken :
    ((withZ State.reset).flags.zero = true ∧ State.reset.flags.zero = false) ∧
    (∃ s : State, s.cfg.memSize ≤ 65536 ∧ s.sp.toNat + 2 < s.cfg.memSize) ∧
    (∃ s : State, s.cfg.memSize ≤ 65536 ∧ s.cfg.memSize ≤ s.sp.toNat + 1) ∧
    ∃ s : State, s.cfg.memSize ≤ 65536 ∧ s.sp.toNat + 1 < s.cfg.memSize ∧ s.cfg.memSize ≤ s.sp.toNat + 2 :=
  ⟨by decide, ⟨atSP 0xFFFD, by decide⟩, ⟨atSP 0xFFFF, by decide⟩, ⟨atSP 0xFFFE, by decide⟩⟩

theorem witness_ReturnNotTaken :
    ((atPC 0xFFFE).flags.zero = false ∧ (withZ (atPC 0xFFFE)).flags.zero = true) ∧
    (atPC 0xFFFE).pc.toNat + 1 ≤ 0xFFFF ∧ 0xFFFF < (atPC 0xFFFF).pc.toNat + 1 := by decide

theorem witness_CallThenReturn :
    ∃ (s t back : State), s.cfg.memSize ≤ 65536 ∧ s.pc.toNat + 3 ≤ 0xFFFF ∧ 2 ≤ s.sp.toNat ∧
      s.sp.toNat < s.cfg.memSize ∧ exec (.call_nn 0x0200) s = .next t ∧ back.cfg = t.cfg ∧ back.sp = t.sp ∧
      back.mem.read s.sp.toNat = t.mem.read s.sp.toNat ∧ back.mem.read (s.sp.toNat - 1) = t.mem.read (s.sp.toNat - 1) :=
  ⟨atPC 0x0100, _, _, by decide, by decide, by decide, by decide, rfl, rfl, rfl, rfl, rfl⟩

theorem witness_FlagsWrittenByArithmeticAlone :
    (∃ (i : Instr) (s t : State), exec i s = .next t ∧ ¬WritesFlags i) ∧
    (∃ (op : Byte) (s t : State), execUnknown op s = .next t) ∧
    ∃ (i : Instr) (s : State), WritesFlags i ∧ s.pc.toNat + i.length ≤ 0xFFFF :=
  ⟨⟨.nop, State.reset, _, rfl, by
      rintro (⟨r, h⟩ | ⟨r, h⟩ | ⟨n, h⟩)
      · cases r <;> cases h
      · cases r <;> cases h
      · cases h⟩,
   ⟨0xC6, State.reset, _, rfl⟩, ⟨.cp_n 0, atPC 0xFFFD, .inr (.inr ⟨0, rfl⟩), by decide⟩⟩

theorem witness_MemoryWrittenByStoreAndCallAlone :
    (∃ (i : Instr) (s t : State), exec i s = .next t ∧ ¬WritesMemory i) ∧
    ∃ (op : Byte) (s t : State), execUnknown op s = .next t :=
  ⟨⟨.nop, State.reset, _, rfl, by
      rintro (⟨r, h⟩ | ⟨nn, h⟩)
      · cases r <;> cases h
      · cases h⟩,
   ⟨0xC6, State.reset, _, rfl⟩⟩

theorem witness_SequentialSuccessor :
    ∃ (s t : State), Ready s ∧ fetch s = .instr (.ldA_n 5) ∧ ¬LeavesSequence (.ldA_n 5) s ∧ step s = .next t ∧
      s.pc.toNat + 2 ≤ 0xFFFF ∧ t.run = .running :=
  ⟨put 0xFFFD [0x3E, 0x05], _, ⟨by decide, rfl⟩, by decide, by simp [LeavesSequence], rfl, by decide, by decide⟩

theorem witness_SequentialSuccessor_fault :
    ∃ (s t : State), Ready s ∧ fetch s = .instr (.ldA_n 5) ∧ step s = .next t ∧ 0xFFFF < s.pc.toNat + 2 :=
  ⟨put 0xFFFE [0x3E, 0x05], _, ⟨by decide, rfl⟩, by decide, rfl, by decide⟩

/-- A call, a return, and a step that leaves `SP`. -/
theorem witness_StackPointerMovesByTwo :
    ∃ s t u s' t' u' : State, step s = .next s' ∧ step t = .next t' ∧ step u = .next u' ∧
      s'.sp = 0xFFFC ∧ t'.sp = 0x9002 ∧ u'.sp = 0xFFFE :=
  ⟨put 0 [0xCD, 0x00, 0x02], { put 0 [0xC9] with sp := 0x9000 }, put 0 [0x00], _, _, _, rfl, rfl, rfl, by decide,
   by decide, by decide⟩

theorem witness_HaltedByHaltAlone :
    ∃ s t : State, Ready s ∧ step s = .next t ∧ t.run = .halted ∧ fetch s = .instr .halt :=
  ⟨put 0 [0x76], _, ⟨by decide, rfl⟩, rfl, by decide, by decide⟩

theorem witness_FaultsArePrecise :
    (∃ s t : State, Ready s ∧ step s = .next t ∧ t.run = .faulted ∧ s.pc.toNat < s.cfg.memSize) ∧
    ∃ s t : State, Ready s ∧ step s = .next t ∧ t.run = .faulted ∧ s.cfg.memSize ≤ s.pc.toNat :=
  ⟨⟨put 0xFFFF [0x00], _, ⟨by decide, rfl⟩, rfl, by decide, by decide⟩,
   ⟨sized 0x1000 (atPC 0x1000), _, ⟨by decide, rfl⟩, rfl, by decide, by decide⟩⟩

theorem witness_YieldCadence :
    (∃ s t : State, Ready s ∧ step s = .next t ∧ t.run = .faulted) ∧
    (∃ s t : State, Ready s ∧ step s = .next t ∧ t.run = .halted) ∧
    (∃ s t : State, Ready s ∧ step s = .next t ∧ t.run = .running ∧ fetch s = .instr .nop) ∧
    ∃ s t : State, Ready s ∧ step s = .next t ∧ t.run = .running ∧ fetch s = .unknown 0xC6 :=
  ⟨⟨put 0xFFFF [0x00], _, ⟨by decide, rfl⟩, rfl, by decide⟩, ⟨put 0 [0x76], _, ⟨by decide, rfl⟩, rfl, by decide⟩,
   ⟨put 0 [0x00], _, ⟨by decide, rfl⟩, rfl, by decide, by decide⟩,
   ⟨put 0 [0xC6], _, ⟨by decide, rfl⟩, rfl, by decide, by decide⟩⟩

/-- Two states that agree on the core and differ in the counter, the events, the fault record, the period and the plane. -/
theorem witness_HiddenStateChangesNoResult :
    ∃ s t : State, s.cfg.wellFormed = true ∧ t.cfg.wellFormed = true ∧ SameCore s t ∧ s.icount ≠ t.icount ∧
      s.events ≠ t.events ∧ s.fault ≠ t.fault ∧ s.cfg ≠ t.cfg :=
  ⟨put 0 [0x80],
   { put 0 [0x80] with
     icount := 3, events := [.renderYield], fault := ⟨7, 7, 7⟩,
     cfg := { Config.default with renderPeriod := 9, videoStart := 0 } },
   by decide, by decide, ⟨by intro r; cases r <;> rfl, rfl, rfl, rfl, rfl, rfl, rfl⟩, by decide, by decide, by decide,
   by decide⟩

theorem witness_StoreIsSeenByNextFetch :
    ∃ s : State, Ready s ∧ s.hl.toNat = s.pc.toNat + 1 ∧ s.hl.toNat < s.cfg.memSize ∧ encode .halt = [s.reg .a] :=
  ⟨{ put 0 [0x77] with l := 1, a := 0x76 }, ⟨by decide, rfl⟩, by decide, by decide, by decide⟩

theorem witness_StoreShowsInVideoPlane :
    ∃ (s : State) (x y : Nat), s.pc.toNat + 1 ≤ 0xFFFF ∧ s.hl.toNat < s.cfg.memSize ∧ x < s.cfg.screenW ∧
      y < s.cfg.screenH ∧ videoAddr s.cfg x y = s.hl.toNat ∧ videoAddr s.cfg 0 0 ≠ s.hl.toNat :=
  ⟨{ put 0 [0x77] with h := 0x80, l := 0xFF }, 15, 15, by decide⟩

end Sys2Proof.Tests
end

section
/-! What one instruction, and one step, can do: said once, by case, for the statements about every instruction. -/

namespace Sys2Proof

/-- The ranges of 00_scope.md R7, as inequalities. -/
theorem Config.wellFormed_iff (c : Config) :
    c.wellFormed = true ↔ (1 ≤ c.memSize ∧ c.memSize ≤ 65536) ∧ 1 ≤ c.renderPeriod := by
  simp [Config.wellFormed, Config.memSizeOk, Config.renderPeriodOk]

end Sys2Proof

namespace Sys2Proof.Machine

open Sys2Proof.Claims

/-! ### Encoded lengths -/

@[simp] theorem length_ldImm (r : Reg) (n : Byte) : (Instr.ldImm r n).length = 2 := by
  cases r <;> rfl

@[simp] theorem length_ldReg (dst src : Reg) : (Instr.ldReg dst src).length = 1 := by
  cases dst <;> cases src <;> rfl

@[simp] theorem length_ldFromMem (r : Reg) : (Instr.ldFromMem r).length = 1 := by
  cases r <;> rfl

@[simp] theorem length_ldToMem (r : Reg) : (Instr.ldToMem r).length = 1 := by
  cases r <;> rfl

@[simp] theorem length_addA (r : Reg) : (Instr.addA r).length = 1 := by
  cases r <;> rfl

@[simp] theorem length_cpReg (r : Reg) : (Instr.cpReg r).length = 1 := by
  cases r <;> rfl

/-! ### A series of writes -/

/-- The second memory is the first after some writes, all of them below a bound. -/
inductive Memory.WrittenBelow (bound : Nat) (m : Memory) : Memory → Prop where
  | none : WrittenBelow bound m m
  | write {m' : Memory} {x : Nat} (v : Byte) :
    WrittenBelow bound m m' → x < bound → WrittenBelow bound m (m'.write x v)

theorem Memory.WrittenBelow.keeps_wf {bound : Nat} {m m' : Memory} (h : m.WrittenBelow bound m') (hm : m.wf = true) :
    m'.wf = true := by
  induction h with
  | none => exact hm
  | write v _ _ ih => exact Memory.wf_write _ _ v ih

theorem Memory.WrittenBelow.keeps_below {bound : Nat} {m m' : Memory} (h : m.WrittenBelow bound m')
    (hm : m.below bound = true) : m'.below bound = true := by
  induction h with
  | none => exact hm
  | write v _ hx ih => exact Memory.below_write _ bound _ v hx ih

/-! ### What an instruction's pseudocode commits or raises -/

/-- What holds of the state an instruction's pseudocode leaves, whichever instruction it is: the fields no instruction
writes, and for the others, which instructions write them and how. -/
structure Commits (i : Instr) (s u : State) : Prop where
  cfg : u.cfg = s.cfg
  run : u.run = s.run
  fault : u.fault = s.fault
  icount : u.icount = s.icount
  events : u.events = s.events
  flags : u.flags = s.flags ∨ WritesFlags i ∧ u.flags.parity = false
  mem : u.mem = s.mem ∨ WritesMemory i
  memWritten : s.mem.WrittenBelow s.cfg.memSize u.mem
  sp : u.sp = s.sp ∨ ((∃ nn, i = .call_nn nn) ∧ u.sp.toNat + 2 = s.sp.toNat) ∨
    (IsReturn i ∧ s.sp.toNat + 2 < s.cfg.memSize ∧ u.sp = s.sp + 2)

/-- The addresses an instruction's pseudocode can report: a successor that does not fit `PC`, an address at or above
`MEM_SIZE`, or -1 for a push at the bottom of memory. -/
inductive RaisedAddress (i : Instr) (s : State) : Int → Prop where
  | successor : 0xFFFF < s.pc.toNat + i.length → RaisedAddress i s (s.pc.toNat + i.length)
  | outside {x : Int} : s.cfg.memSize ≤ x → x ≤ 0x10000 ∨ x = s.cfg.memSize → RaisedAddress i s x
  | stackBottom : RaisedAddress i s (-1)

/-- The rule every pseudocode follows. -/
def FollowsRule (i : Instr) (s : State) : Except Int State → Prop
  | .ok u => Commits i s u
  | .error x => RaisedAddress i s x

section
variable {i : Instr} {s u : State}

theorem Commits.refl (i : Instr) (s : State) : Commits i s s :=
  ⟨rfl, rfl, rfl, rfl, rfl, .inl rfl, .inl rfl, .none, .inl rfl⟩

theorem Commits.jumpTo (h : Commits i s u) (target : Word) : Commits i s (jumpTo target u) :=
  ⟨h.cfg, h.run, h.fault, h.icount, h.events, h.flags, h.mem, h.memWritten, h.sp⟩

theorem Commits.setReg (i : Instr) (s : State) (r : Reg) (v : Byte) : Commits i s (s.setReg r v) := by
  cases r <;> exact ⟨rfl, rfl, rfl, rfl, rfl, .inl rfl, .inl rfl, .none, .inl rfl⟩

theorem Commits.setHL (i : Instr) (s : State) (v : Word) : Commits i s (s.setHL v) :=
  ⟨rfl, rfl, rfl, rfl, rfl, .inl rfl, .inl rfl, .none, .inl rfl⟩

theorem Commits.setDE (i : Instr) (s : State) (v : Word) : Commits i s (s.setDE v) :=
  ⟨rfl, rfl, rfl, rfl, rfl, .inl rfl, .inl rfl, .none, .inl rfl⟩

theorem FollowsRule.advance {len : Nat} (h : Commits i s u) (hpc : u.pc = s.pc) (hlen : i.length = len) :
    FollowsRule i s (advance len u) := by
  subst hlen
  by_cases hfit : u.pc.toNat + i.length ≤ 0xFFFF
  · rw [advance_of_fits hfit]
    exact h.jumpTo _
  · rw [advance_of_not (by omega), hpc]
    exact .successor (by rw [← hpc]; omega)

theorem FollowsRule.jumpIf (taken : Bool) (nn : Word) (hlen : i.length = 3) : FollowsRule i s (jumpIf taken nn s) := by
  cases taken with
  | true => exact (Commits.refl i s).jumpTo nn
  | false => exact .advance (.refl i s) rfl hlen

theorem FollowsRule.loadFromHL (r : Reg) (hlen : i.length = 1) : FollowsRule i s (loadFromHL r s) := by
  unfold Machine.loadFromHL readAtHL
  split
  · next x h =>
    obtain ⟨hout, rfl⟩ := memRead_eq_error h
    exact .outside (by omega) (.inl (by omega))
  · exact .advance (.setReg i s r _) (State.setReg_pc s r _) hlen

theorem FollowsRule.storeToHL (r : Reg) (hi : WritesMemory i) (hlen : i.length = 1) :
    FollowsRule i s (storeToHL r s) := by
  unfold Machine.storeToHL writeAtHL
  split
  · next x h =>
    obtain ⟨hout, rfl⟩ := memWrite_eq_error h
    exact .outside (by omega) (.inl (by omega))
  · next t h =>
    obtain ⟨hin, rfl⟩ := memWrite_eq_ok h
    have hcommit : Commits i s { s with mem := s.mem.write (s.hl.toNat : Int).toNat (s.reg r) } :=
      ⟨rfl, rfl, rfl, rfl, rfl, .inl rfl, .inr hi, .write _ .none (by omega), .inl rfl⟩
    exact .advance hcommit rfl hlen

theorem FollowsRule.addToA (b : Byte) (hi : WritesFlags i) (hlen : i.length = 1) : FollowsRule i s (addToA b s) :=
  .advance ⟨rfl, rfl, rfl, rfl, rfl, .inr ⟨hi, rfl⟩, .inl rfl, .none, .inl rfl⟩ rfl hlen

theorem FollowsRule.compareA {len : Nat} (b : Byte) (hi : WritesFlags i) (hlen : i.length = len) :
    FollowsRule i s (compareA b len s) :=
  .advance ⟨rfl, rfl, rfl, rfl, rfl, .inr ⟨hi, rfl⟩, .inl rfl, .none, .inl rfl⟩ rfl hlen

theorem FollowsRule.callTo (nn : Word) (s : State) : FollowsRule (.call_nn nn) s (callTo nn s) := by
  unfold Machine.callTo
  split
  · next hbig => exact .successor hbig
  · split
    · next x h =>
      rcases push_eq_error h with ⟨hout, rfl⟩ | ⟨-, -, rfl⟩
      · exact .outside (by omega) (.inl (by omega))
      · exact .stackBottom
    · next t h =>
      obtain ⟨hlow, hin, rfl⟩ := push_eq_ok h
      have hsp : (s.sp - 2).toNat + 2 = s.sp.toNat := by
        rw [BitVec.toNat_sub_of_le (by simpa [BitVec.le_def] using hlow)]
        exact Nat.sub_add_cancel hlow
      refine Commits.jumpTo (u := { s with mem := _, sp := s.sp - 2 }) ?_ nn
      exact ⟨rfl, rfl, rfl, rfl, rfl, .inl rfl, .inr (.inr ⟨nn, rfl⟩),
        .write _ (.write _ .none hin) (by omega), .inr (.inl ⟨⟨nn, rfl⟩, hsp⟩)⟩

theorem FollowsRule.returnFromCall (hi : IsReturn i) : FollowsRule i s (returnFromCall s) := by
  unfold Machine.returnFromCall
  split
  · next x h =>
    rcases pop_eq_error h with ⟨hout, rfl⟩ | ⟨hin, hout, rfl⟩
    · exact .outside (by omega) (.inl (by omega))
    · exact .outside (by omega) (.inr (by omega))
  · next v t h =>
    obtain ⟨hin, -, rfl⟩ := pop_eq_ok h
    refine Commits.jumpTo (u := { s with sp := s.sp + 2 }) ?_ v
    exact ⟨rfl, rfl, rfl, rfl, rfl, .inl rfl, .inl rfl, .none, .inr (.inr ⟨hi, hin, rfl⟩)⟩

theorem FollowsRule.returnIf (taken : Bool) (hi : IsReturn i) (hlen : i.length = 1) :
    FollowsRule i s (returnIf taken s) := by
  cases taken with
  | true => exact .returnFromCall hi
  | false => exact .advance (.refl i s) rfl hlen

end

/-! ### What an instruction can do -/

/-- The outcomes of an instruction: `HALT`'s own end, a fault taken, or the pseudocode's writes committed. -/
inductive ExecResult (i : Instr) (s : State) : State → Prop where
  | halted : i = .halt → ExecResult i s (emit .renderYield { s with run := .halted })
  | faulted {x : Int} : RaisedAddress i s x → ExecResult i s (takeBoundsFault x i.opcode s)
  | committed {u : State} : Commits i s u → ExecResult i s (retire u)

/-- Whatever the opcode byte is called, `complete` of a pseudocode that follows the rule ends in one of the outcomes. -/
theorem FollowsRule.complete {i : Instr} {s : State} {r : Except Int State} {op : Byte} (h : FollowsRule i s r)
    (hop : i.opcode = op) : ∃ t, complete op s r = .next t ∧ ExecResult i s t := by
  subst hop
  cases r with
  | error x => exact ⟨_, rfl, .faulted h⟩
  | ok u => exact ⟨_, rfl, .committed h⟩

/-- Every instruction answers a next state, one of the outcomes. -/
theorem exec_result (i : Instr) (s : State) : ∃ t, exec i s = .next t ∧ ExecResult i s t := by
  induction i using Instr.form_cases with
  | nop => exact (FollowsRule.advance (.refl .nop s) rfl rfl).complete rfl
  | halt => exact ⟨_, rfl, .halted rfl⟩
  | ldImm r n =>
    rw [exec_ldImm]
    exact (FollowsRule.advance (.setReg _ s r n) (by simp) (by simp)).complete (by simp)
  | ldDE nn => exact (FollowsRule.advance (.setDE (.ldDE_nn nn) s nn) rfl rfl).complete rfl
  | ldHL nn => exact (FollowsRule.advance (.setHL (.ldHL_nn nn) s nn) rfl rfl).complete rfl
  | ldReg dst src =>
    rw [exec_ldReg]
    exact (FollowsRule.advance (.setReg _ s dst _) (by simp) (by simp)).complete (by simp)
  | ldFromMem r =>
    rw [exec_ldFromMem]
    exact (FollowsRule.loadFromHL r (by simp)).complete (by simp)
  | ldToMem r =>
    rw [exec_ldToMem]
    exact (FollowsRule.storeToHL r (.inl ⟨r, rfl⟩) (by simp)).complete (by simp)
  | addA r =>
    rw [exec_addA]
    exact (FollowsRule.addToA _ (.inl ⟨r, rfl⟩) (by simp)).complete (by simp)
  | cpReg r =>
    rw [exec_cpReg]
    exact (FollowsRule.compareA _ (.inr (.inl ⟨r, rfl⟩)) (by simp)).complete (by simp)
  | cp_n n => exact (FollowsRule.compareA n (.inr (.inr ⟨n, rfl⟩)) rfl).complete rfl
  | jp nn => exact FollowsRule.complete (r := .ok (jumpTo nn s)) ((Commits.refl _ s).jumpTo nn) rfl
  | jpZ nn => exact (FollowsRule.jumpIf (condZ s) nn rfl).complete rfl
  | jpNZ nn => exact (FollowsRule.jumpIf (condNZ s) nn rfl).complete rfl
  | call nn => exact (FollowsRule.callTo nn s).complete rfl
  | ret => exact (FollowsRule.returnFromCall (.inl rfl)).complete rfl
  | retZ => exact (FollowsRule.returnIf (condZ s) (.inr (.inl rfl)) rfl).complete rfl
  | retNZ => exact (FollowsRule.returnIf (condNZ s) (.inr (.inr rfl)) rfl).complete rfl

theorem exec_eq_next {i : Instr} {s t : State} (h : exec i s = .next t) : ExecResult i s t := by
  obtain ⟨t', ht', hres⟩ := exec_result i s
  cases h.symm.trans ht'
  exact hres

/-! ### What an unknown opcode can do -/

/-- The outcomes of an unknown opcode: the byte reported and skipped, or, at the end of the address range, a fault. -/
inductive UnknownResult (op : Byte) (s : State) : State → Prop where
  | skipped : UnknownResult op s (retire (jumpTo (s.pc + 1) (emit (.unknownOpcode op s.pc) s)))
  | faulted : 0xFFFF < s.pc.toNat + 1 → UnknownResult op s (takeBoundsFault (s.pc.toNat + 1) op s)

theorem execUnknown_result (op : Byte) (s : State) : ∃ t, execUnknown op s = .next t ∧ UnknownResult op s t := by
  unfold execUnknown
  cases h : advance 1 (emit (.unknownOpcode op s.pc) s) with
  | ok u =>
    obtain ⟨-, rfl⟩ := advance_eq_ok h
    exact ⟨_, rfl, .skipped⟩
  | error x =>
    obtain ⟨hover, rfl⟩ := advance_eq_error h
    exact ⟨_, rfl, .faulted hover⟩

theorem execUnknown_eq_next {op : Byte} {s t : State} (h : execUnknown op s = .next t) : UnknownResult op s t := by
  obtain ⟨t', ht', hres⟩ := execUnknown_result op s
  cases h.symm.trans ht'
  exact hres

/-! ### What a step can do -/

/-- The outcomes of a step: nothing when the core is stopped, else by what the fetch stage ends in. -/
inductive StepResult (s : State) : State → Prop where
  | stopped : s.run ≠ .running → StepResult s s
  | fetchFault {x : Int} {op : Byte} : fetch s = .bounds x op → StepResult s (takeBoundsFault x op s)
  | unknown {op : Byte} {t : State} : fetch s = .unknown op → UnknownResult op s t → StepResult s t
  | executed {i : Instr} {t : State} : fetch s = .instr i → ExecResult i s t → StepResult s t

theorem step_of_stopped {s : State} (hw : s.cfg.wellFormed = true) (hr : s.run ≠ .running) : step s = .next s := by
  cases h : s.run with
  | running => exact absurd h hr
  | halted => simp [step, hw, h]
  | faulted => simp [step, hw, h]

/-- A machine in range answers a next state, one of the outcomes. -/
theorem step_result {s : State} (hw : s.cfg.wellFormed = true) : ∃ t, step s = .next t ∧ StepResult s t := by
  by_cases hr : s.run = .running
  · rw [step_of_running hw hr]
    cases hf : fetch s with
    | bounds x op => exact ⟨_, rfl, .fetchFault hf⟩
    | unknown op =>
      obtain ⟨t, ht, hres⟩ := execUnknown_result op s
      exact ⟨t, ht, .unknown hf hres⟩
    | instr i =>
      obtain ⟨t, ht, hres⟩ := exec_result i s
      exact ⟨t, ht, .executed hf hres⟩
  · exact ⟨s, step_of_stopped hw hr, .stopped hr⟩

theorem step_eq_next {s t : State} (hw : s.cfg.wellFormed = true) (h : step s = .next t) : StepResult s t := by
  obtain ⟨t', ht', hres⟩ := step_result hw
  cases h.symm.trans ht'
  exact hres

end Sys2Proof.Machine
end

section
/-! The invariant: every outcome of a step keeps it. -/

namespace Sys2Proof.Machine

open Sys2Proof.Claims

/-! ### The parts of a step -/

section
variable {s u : State}

theorem State.Inv.memSize_le (h : s.Inv) : s.cfg.memSize ≤ 65536 :=
  ((Config.wellFormed_iff _).1 h.config).1.2

theorem State.Inv.takeBoundsFault {x : Int} (h : s.Inv) (hlow : -1 ≤ x) (hhigh : x ≤ 0x10000) (op : Byte) :
    (takeBoundsFault x op s).Inv :=
  { h with faultAddrLow := hlow, faultAddrHigh := hhigh }

theorem State.Inv.emit (h : s.Inv) (ev : Event) : (emit ev s).Inv := { h with }

theorem State.Inv.setRun (h : s.Inv) (r : RunState) : { s with run := r }.Inv := { h with }

theorem State.Inv.jumpTo (h : s.Inv) (target : Word) : (jumpTo target s).Inv := { h with }

theorem State.Inv.retire (h : s.Inv) : (retire s).Inv := by
  have hperiod := h.icountBelow
  unfold Machine.retire
  split
  · exact { h with icountBelow := Nat.zero_lt_of_lt hperiod }
  · exact { h with icountBelow := Nat.lt_of_le_of_ne hperiod ‹_› }

/-- `CALL` and the returns move `SP` by 2 without a wrap, and nothing else moves it. -/
theorem Commits.sp_toNat {i : Instr} (hc : Commits i s u) (hm : s.cfg.memSize ≤ 65536) :
    u.sp = s.sp ∨ ((∃ nn, i = .call_nn nn) ∧ u.sp.toNat + 2 = s.sp.toNat) ∨
      (IsReturn i ∧ u.sp.toNat = s.sp.toNat + 2) := by
  rcases hc.sp with hsame | hcall | ⟨hret, hroom, hsp⟩
  · exact .inl hsame
  · exact .inr (.inl hcall)
  · refine .inr (.inr ⟨hret, ?_⟩)
    rw [hsp]
    exact word_add_toNat (k := 2) (by omega)

theorem State.Inv.of_commits {i : Instr} (h : s.Inv) (hc : Commits i s u) : u.Inv where
  config := hc.cfg ▸ h.config
  memCanonical := hc.memWritten.keeps_wf h.memCanonical
  memInside := hc.cfg ▸ hc.memWritten.keeps_below h.memInside
  parityClear := by
    rcases hc.flags with hsame | ⟨-, hparity⟩
    · rw [hsame, h.parityClear]
    · exact hparity
  icountBelow := by rw [hc.icount, hc.cfg]; exact h.icountBelow
  faultAddrLow := by rw [hc.fault]; exact h.faultAddrLow
  faultAddrHigh := by rw [hc.fault]; exact h.faultAddrHigh
  spParity := by
    have heven := h.spParity
    rw [hc.cfg]
    rcases hc.sp_toNat h.memSize_le with hsame | ⟨-, hdown⟩ | ⟨-, hup⟩
    · rw [hsame, heven]
    · omega
    · omega

/-- The range of `fault_addr` (10_state.md R32), for an instruction that lies inside memory. -/
theorem RaisedAddress.range {i : Instr} {x : Int} (h : RaisedAddress i s x) (hm : s.cfg.memSize ≤ 65536)
    (hfit : s.pc.toNat + i.length ≤ s.cfg.memSize) : -1 ≤ x ∧ x ≤ 0x10000 := by
  cases h with
  | successor _ => omega
  | outside hout hx => omega
  | stackBottom => decide

end

/-! ### The outcomes of a step -/

section
variable {s t : State}

theorem State.Inv.of_execResult {i : Instr} (h : s.Inv) (hfit : s.pc.toNat + i.length ≤ s.cfg.memSize)
    (hres : ExecResult i s t) : t.Inv := by
  cases hres with
  | halted _ => exact (h.setRun .halted).emit .renderYield
  | faulted hx =>
    obtain ⟨hlow, hhigh⟩ := hx.range h.memSize_le hfit
    exact h.takeBoundsFault hlow hhigh _
  | committed hc => exact (h.of_commits hc).retire

theorem State.Inv.of_unknownResult {op : Byte} (h : s.Inv) (hres : UnknownResult op s t) : t.Inv := by
  cases hres with
  | skipped => exact ((h.emit _).jumpTo _).retire
  | faulted _ => exact h.takeBoundsFault (by omega) (by omega) op

theorem State.Inv.of_stepResult (h : s.Inv) (hres : StepResult s t) : t.Inv := by
  have hm := h.memSize_le
  cases hres with
  | stopped _ => exact h
  | fetchFault hf =>
    obtain ⟨hout, ⟨rfl, -⟩ | ⟨-, -, -, rfl⟩⟩ := fetch_eq_bounds hf
    · exact h.takeBoundsFault (by omega) (by omega) _
    · exact h.takeBoundsFault (by omega) (by omega) _
  | unknown _ hres => exact h.of_unknownResult hres
  | executed hf hres => exact h.of_execResult (fetch_eq_instr hf).2 hres

end

end Sys2Proof.Machine
end

section
/-! The state after reset: its memory read off the image, and that it meets the invariant. -/

namespace Sys2Proof.Machine

theorem Memory.below_ofImage (bytes : List Byte) (x bound : Nat) (h : x + bytes.length ≤ bound) :
    (Memory.ofImage x bytes).below bound = true := by
  induction bytes generalizing x with
  | nil => rfl
  | cons v rest ih =>
    have hlen : x + 1 + rest.length ≤ bound := by simpa [Nat.add_assoc, Nat.add_comm 1] using h
    have hrest := ih (x + 1) hlen
    unfold Memory.ofImage
    split
    · exact hrest
    · have hx : x < bound := by omega
      simpa [Memory.below, hx] using hrest

theorem Memory.read_ofImage_of_lt (bytes : List Byte) {x y : Nat} (h : y < x) :
    (Memory.ofImage x bytes).read y = 0#8 := by
  induction bytes generalizing x with
  | nil => rfl
  | cons v rest ih =>
    have hrest := ih (Nat.lt_succ_of_lt h)
    unfold Memory.ofImage
    split
    · exact hrest
    · rwa [Memory.read, if_neg (Nat.ne_of_gt h)]

/-- An image's byte is found at its place, and 0 beyond its end (70_reset_and_hazards.md R252). -/
theorem Memory.read_ofImage (bytes : List Byte) (x k : Nat) :
    (Memory.ofImage x bytes).read (x + k) = bytes.getD k 0#8 := by
  induction bytes generalizing x k with
  | nil => rfl
  | cons v rest ih =>
    unfold Memory.ofImage
    cases k with
    | zero =>
      split
      · next hv => simp [Memory.read_ofImage_of_lt rest (Nat.lt_succ_self x), hv]
      · simp [Memory.read]
    | succ k =>
      have hnext : x + (k + 1) = x + 1 + k := by omega
      have hne : x ≠ x + 1 + k := by omega
      rw [hnext]
      split
      · rw [ih, List.getD_cons_succ]
      · rw [Memory.read, if_neg hne, ih, List.getD_cons_succ]

theorem resetWith_read (cfg : Config) (image : List Byte) {x : Nat} (h : x < cfg.memSize) :
    (State.resetWith cfg image).mem.read x = image.getD x 0#8 := by
  have hread := Memory.read_ofImage (image.take cfg.memSize) 0 x
  rw [Nat.zero_add] at hread
  simpa [State.resetWith, List.getD_eq_getElem?_getD, List.getElem?_take, h] using hread

theorem resetWith_inv (cfg : Config) (image : List Byte) (hw : cfg.wellFormed = true) :
    (State.resetWith cfg image).Inv where
  config := hw
  memCanonical := Memory.wf_ofImage _ 0
  memInside := Memory.below_ofImage _ 0 cfg.memSize (by simp)
  parityClear := rfl
  icountBelow := ((Config.wellFormed_iff cfg).1 hw).2
  faultAddrLow := (by decide : (-1 : Int) ≤ 0)
  faultAddrHigh := (by decide : (0 : Int) ≤ 0x10000)
  spParity := rfl

theorem reset_eq_resetWith : State.reset = State.resetWith State.reset.cfg [] := rfl

end Sys2Proof.Machine
end

section
/-! The flags of the instructions that write them: functions of the registers, whatever the flags were (10_state.md R28). -/

namespace Sys2Proof.Machine

open Sys2Proof.Claims

theorem reg_withFlags (s : State) (f : Flags) (r : Reg) : { s with flags := f }.reg r = s.reg r := by
  cases r <;> rfl

/-- Writes whose successor fits are committed, the flags among them. -/
theorem advance_completes (op : Byte) (s : State) {u : State} {len : Nat} (h : u.pc.toNat + len ≤ 0xFFFF) :
    ∃ t, complete op s (advance len u) = .next t ∧ t.flags = u.flags := by
  rw [advance_of_fits h]
  exact ⟨_, rfl, by simp⟩

/-- An instruction that writes flags and whose successor fits completes, and the flags it leaves are a function of the
registers. -/
theorem writesFlags_completes {i : Instr} (hi : WritesFlags i) (s : State) (hfit : s.pc.toNat + i.length ≤ 0xFFFF) :
    ∃ f : Flags, ∀ old, ∃ t, exec i { s with flags := old } = .next t ∧ t.flags = f := by
  rcases hi with ⟨r, rfl⟩ | ⟨r, rfl⟩ | ⟨n, rfl⟩
  · refine ⟨deriveAdd s.a (s.reg r) (s.a + s.reg r), fun old => ?_⟩
    rw [exec_addA, reg_withFlags, addToA]
    exact advance_completes _ _ (by simpa using hfit)
  · refine ⟨deriveSub s.a (s.reg r) (s.a - s.reg r), fun old => ?_⟩
    rw [exec_cpReg, reg_withFlags, compareA]
    exact advance_completes _ _ (by simpa using hfit)
  · refine ⟨deriveSub s.a n (s.a - n), fun old => ?_⟩
    rw [exec_cp_n, compareA]
    exact advance_completes _ _ hfit

end Sys2Proof.Machine
end

section
/-! The statements about the state and about every step: the invariant, reset, and which instruction may change what. -/

namespace Sys2Proof.Proofs

open Sys2Proof.Machine Sys2Proof.Claims

/-- Settles O15: a step has one of the outcomes of `StepResult`, and each keeps the invariant. An instruction fetched lies
inside memory, which bounds the successor it can report. -/
theorem stepKeepsInvariant : Obligations.StepKeepsInvariant := by
  intro s t hs hstep
  exact hs.of_stepResult (step_eq_next hs.config hstep)

/-- Settles O9, by induction on the number of steps. -/
theorem stoppedCoreStays : Obligations.StoppedCoreStays := by
  intro k s hw hr
  induction k with
  | zero => rfl
  | succ k ih => rw [runFor, step_of_stopped hw hr]; exact ih

/-- Settles O12: memory is read off the image, every other piece is the value `State.resetWith` gives it. -/
theorem resetValues : Obligations.ResetValues := by
  rintro cfg image s rfl
  have hregs : ∀ r, (State.resetWith cfg image).reg r = 0x00 := by intro r; cases r <;> rfl
  have hpair : joinBytes 0 0 = 0x0000 := by decide
  have hreset : ∀ before : State, before.cfg = cfg → before.assertReset image = State.resetWith cfg image := by
    rintro before rfl
    rfl
  exact ⟨hregs, hpair, hpair, rfl, rfl, rfl, rfl, rfl, rfl, rfl, fun x hx => resetWith_read cfg image hx, hreset⟩

/-- Settles O13. -/
theorem resetDefaults : Obligations.ResetDefaults := ⟨reset_eq_resetWith, rfl, rfl, rfl, rfl, rfl⟩

/-- Settles O14: `State.reset` is the reset of its own configuration, which is in range. -/
theorem resetMeetsInvariant : Obligations.ResetMeetsInvariant := by
  refine ⟨?_, resetWith_inv⟩
  rw [reset_eq_resetWith]
  exact resetWith_inv _ [] (by decide)

/-- Settles O18: the halves of a pair are those of `joinBytes`, `hiByte` and `loByte`. -/
theorem pairViews : Obligations.PairViews := by
  intro s v x
  exact ⟨joinBytes_hi_lo v, hiByte_toNat v, loByte_toNat v, joinBytes_hi_lo v, hiByte_toNat v, loByte_toNat v,
    joinBytes_toNat s.h s.l, joinBytes_toNat s.d s.e, joinBytes_toNat x s.l, joinBytes_toNat s.h x,
    joinBytes_toNat x s.e, joinBytes_toNat s.d x⟩

/-! ### The flags, memory, the stack pointer and the run state -/

/-- Settles O40: an outcome of `ExecResult` has the old flags unless the instruction is one of the three forms, and those
compute theirs from the registers. -/
theorem flagsWrittenByArithmeticAlone : Obligations.FlagsWrittenByArithmeticAlone := by
  refine ⟨?_, ?_, ?_⟩
  · intro i s t hexec hi
    cases exec_eq_next hexec with
    | halted _ => rfl
    | faulted _ => rfl
    | committed hc =>
      rcases hc.flags with hsame | ⟨hwrites, -⟩
      · rw [retire_flags, hsame]
      · exact absurd hwrites hi
  · intro op s t hexec
    cases execUnknown_eq_next hexec with
    | skipped => simp
    | faulted _ => rfl
  · intro i s old hi hfit
    obtain ⟨f, hf⟩ := writesFlags_completes hi s hfit
    obtain ⟨t, ht, htf⟩ := hf s.flags
    obtain ⟨u, hu, huf⟩ := hf old
    exact ⟨t, u, ht, hu, htf.trans huf.symm⟩

/-- Settles O41: the only outcome with another memory is a commit, and only of an instruction that writes memory. -/
theorem memoryWrittenByStoreAndCallAlone : Obligations.MemoryWrittenByStoreAndCallAlone := by
  refine ⟨?_, ?_⟩
  · intro i s t hexec hi x
    cases exec_eq_next hexec with
    | halted _ => rfl
    | faulted _ => rfl
    | committed hc =>
      rcases hc.mem with hsame | hwrites
      · rw [retire_mem, hsame]
      · exact absurd hwrites hi
  · intro op s t hexec x
    cases execUnknown_eq_next hexec with
    | skipped => simp
    | faulted _ => rfl

/-- Settles O42: the only outcome with another `SP` is a commit of `CALL` or of a return. -/
theorem stackPointerMovesByTwo : Obligations.StackPointerMovesByTwo := by
  intro s t hw hstep
  cases step_eq_next hw hstep with
  | stopped _ => exact .inl rfl
  | fetchFault _ => exact .inl rfl
  | unknown _ hres =>
    cases hres with
    | skipped => exact .inl (by simp)
    | faulted _ => exact .inl rfl
  | executed hf hres =>
    cases hres with
    | halted _ => exact .inl rfl
    | faulted _ => exact .inl rfl
    | committed hc =>
      rw [retire_sp]
      rcases hc.sp_toNat ((Config.wellFormed_iff _).1 hw).1.2 with hsame | ⟨⟨nn, rfl⟩, hdown⟩ | ⟨hret, hup⟩
      · exact .inl hsame
      · exact .inr (.inl ⟨hdown, nn, hf⟩)
      · exact .inr (.inr ⟨hup, _, hret, hf⟩)

/-- Settles O44: the outcome of `HALT` is the only one in `Halted`, and a fetched `HALT` has no other. -/
theorem haltedByHaltAlone : Obligations.HaltedByHaltAlone := by
  rintro s t ⟨hw, hr⟩ hstep
  constructor
  · intro hhalted
    cases step_eq_next hw hstep with
    | stopped hstop => exact absurd hr hstop
    | fetchFault _ => cases hhalted
    | unknown _ hres =>
      cases hres with
      | skipped => simp [hr] at hhalted
      | faulted _ => cases hhalted
    | executed hf hres =>
      cases hres with
      | halted hi => rw [hf, hi]
      | faulted _ => cases hhalted
      | committed hc => simp [hc.run, hr] at hhalted
  · intro hf
    rw [step_of_running hw hr, hf] at hstep
    cases hstep
    rfl

end Sys2Proof.Proofs
end

section
/-! The hidden state: the yield counter, the fault record, the events and the renderer's parameters. `State.visible` blanks
them, and every operation commutes with it, so no operation reads them. -/

namespace Sys2Proof.Machine

/-- The state with everything hidden at a fixed value: what `SameCore` compares. -/
def State.visible (s : State) : State :=
  { s with
    cfg := { Config.default with memSize := s.cfg.memSize }, fault := ⟨0, 0, 0⟩, icount := 0, events := [] }

theorem sameCore_iff_visible_eq (s t : State) : SameCore s t ↔ s.visible = t.visible := by
  constructor
  · rintro ⟨hregs, hpc, hsp, hflags, hrun, hmem, hsize⟩
    have ha : s.a = t.a := hregs .a
    have hb : s.b = t.b := hregs .b
    have hc : s.c = t.c := hregs .c
    have hd : s.d = t.d := hregs .d
    have he : s.e = t.e := hregs .e
    have hh : s.h = t.h := hregs .h
    have hl : s.l = t.l := hregs .l
    simp only [State.visible, ha, hb, hc, hd, he, hh, hl, hpc, hsp, hflags, hrun, hmem, hsize]
  · intro h
    have same : ∀ {α : Type} (f : State → α), f s.visible = f t.visible := fun f => congrArg f h
    refine ⟨fun r => ?_, same State.pc, same State.sp, same State.flags, same State.run, same State.mem,
      same (·.cfg.memSize)⟩
    have hreg : s.visible.reg r = t.visible.reg r := same (·.reg r)
    cases r <;> exact hreg

/-! ### Reads and updates -/

@[simp] theorem visible_pc (s : State) : s.visible.pc = s.pc := rfl

@[simp] theorem visible_sp (s : State) : s.visible.sp = s.sp := rfl

@[simp] theorem visible_memSize (s : State) : s.visible.cfg.memSize = s.cfg.memSize := rfl

@[simp] theorem visible_hl (s : State) : s.visible.hl = s.hl := rfl

@[simp] theorem visible_condZ (s : State) : condZ s.visible = condZ s := rfl

@[simp] theorem visible_condNZ (s : State) : condNZ s.visible = condNZ s := rfl

@[simp] theorem visible_reg (s : State) (r : Reg) : s.visible.reg r = s.reg r := by
  cases r <;> rfl

@[simp] theorem setReg_visible (s : State) (r : Reg) (v : Byte) : s.visible.setReg r v = (s.setReg r v).visible := by
  cases r <;> rfl

@[simp] theorem setHL_visible (s : State) (v : Word) : s.visible.setHL v = (s.setHL v).visible := rfl

@[simp] theorem setDE_visible (s : State) (v : Word) : s.visible.setDE v = (s.setDE v).visible := rfl

@[simp] theorem jumpTo_visible (target : Word) (s : State) : jumpTo target s.visible = (jumpTo target s).visible := rfl

@[simp] theorem memRead_visible (x : Int) (s : State) : memRead x s.visible = memRead x s := rfl

@[simp] theorem fetch_visible (s : State) : fetch s.visible = fetch s := rfl

/-- The counting of a step moves hidden fields alone. -/
@[simp] theorem visible_retire (s : State) : (retire s).visible = s.visible := by
  unfold retire
  split <;> rfl

/-! ### Pseudocodes: the same fault, or the same visible state -/

@[simp] theorem memWrite_visible (x : Int) (v : Byte) (s : State) :
    memWrite x v s.visible = (memWrite x v s).map State.visible := by
  by_cases h : 0 ≤ x ∧ x < s.cfg.memSize
  · rw [memWrite_of_inMemory v h, memWrite_of_inMemory (s := s.visible) v h]; rfl
  · rw [memWrite_of_not v h, memWrite_of_not (s := s.visible) v h]; rfl

@[simp] theorem advance_visible (len : Nat) (s : State) :
    advance len s.visible = (advance len s).map State.visible := by
  by_cases h : s.pc.toNat + len ≤ 0xFFFF
  · rw [advance_of_fits h, advance_of_fits (t := s.visible) h]; rfl
  · have hover : 0xFFFF < s.pc.toNat + len := by omega
    rw [advance_of_not hover, advance_of_not (t := s.visible) hover]; rfl

theorem push_visible (v : Word) (s : State) : push v s.visible = (push v s).map State.visible := by
  cases h : push v s with
  | ok t =>
    obtain ⟨hlow, hin, rfl⟩ := push_eq_ok h
    cases h' : push v s.visible with
    | ok t' =>
      obtain ⟨-, -, rfl⟩ := push_eq_ok h'
      rfl
    | error y =>
      have herr := push_eq_error h'
      simp only [visible_sp, visible_memSize] at herr
      omega
  | error x =>
    have herr := push_eq_error h
    cases h' : push v s.visible with
    | ok t' =>
      obtain ⟨hlow, hin, -⟩ := push_eq_ok h'
      simp only [visible_sp, visible_memSize] at hlow hin
      omega
    | error y =>
      have herr' := push_eq_error h'
      simp only [visible_sp, visible_memSize] at herr'
      have hxy : y = x := by omega
      rw [hxy]
      rfl

theorem pop_visible (s : State) : pop s.visible = (pop s).map (Prod.map id State.visible) := by
  simp only [pop, memRead_visible, visible_sp]
  cases memRead (s.sp.toNat + 1) s with
  | error x => rfl
  | ok hi =>
    cases memRead (s.sp.toNat + 2) s <;> rfl

theorem addToA_visible (b : Byte) (s : State) : addToA b s.visible = (addToA b s).map State.visible :=
  advance_visible 1 { s with a := s.a + b, flags := deriveAdd s.a b (s.a + b) }

theorem compareA_visible (b : Byte) (len : Nat) (s : State) :
    compareA b len s.visible = (compareA b len s).map State.visible :=
  advance_visible len { s with flags := deriveSub s.a b (s.a - b) }

theorem loadFromHL_visible (r : Reg) (s : State) : loadFromHL r s.visible = (loadFromHL r s).map State.visible := by
  simp only [loadFromHL, readAtHL, visible_hl, memRead_visible, setReg_visible, advance_visible]
  cases memRead s.hl.toNat s <;> rfl

theorem storeToHL_visible (r : Reg) (s : State) : storeToHL r s.visible = (storeToHL r s).map State.visible := by
  simp only [storeToHL, writeAtHL, visible_hl, visible_reg, memWrite_visible]
  cases memWrite s.hl.toNat (s.reg r) s with
  | error x => rfl
  | ok t => exact advance_visible 1 t

theorem jumpIf_visible (taken : Bool) (nn : Word) (s : State) :
    jumpIf taken nn s.visible = (jumpIf taken nn s).map State.visible := by
  cases taken with
  | true => rfl
  | false => exact advance_visible 3 s

theorem callTo_visible (nn : Word) (s : State) : callTo nn s.visible = (callTo nn s).map State.visible := by
  simp only [callTo, visible_pc, push_visible]
  split
  · rfl
  · cases push (s.pc + 3) s <;> rfl

theorem returnFromCall_visible (s : State) : returnFromCall s.visible = (returnFromCall s).map State.visible := by
  simp only [returnFromCall, pop_visible]
  cases pop s <;> rfl

theorem returnIf_visible (taken : Bool) (s : State) :
    returnIf taken s.visible = (returnIf taken s).map State.visible := by
  cases taken with
  | true => exact returnFromCall_visible s
  | false => exact advance_visible 1 s

/-! ### Outcomes -/

/-- An outcome with the hidden part of its next state blanked. -/
def visibleOutcome : Host.Outcome State Fault Refusal → Host.Outcome State Fault Refusal
  | .next s => .next s.visible
  | .fault r => .fault r
  | .refused r => .refused r

theorem complete_visible (op : Byte) (s : State) (r : Except Int State) :
    visibleOutcome (complete op s.visible (r.map State.visible)) = visibleOutcome (complete op s r) := by
  cases r with
  | error x => rfl
  | ok u =>
    show Host.Outcome.next (retire u.visible).visible = .next (retire u).visible
    rw [visible_retire, visible_retire]
    rfl

theorem exec_visible (i : Instr) (s : State) : visibleOutcome (exec i s.visible) = visibleOutcome (exec i s) := by
  induction i using Instr.form_cases with
  | nop => rw [exec_nop, exec_nop, advance_visible, complete_visible]
  | halt => rfl
  | ldImm r n => rw [exec_ldImm, exec_ldImm, loadImm, setReg_visible, advance_visible, complete_visible, loadImm]
  | ldDE nn => rw [exec_ldDE_nn, exec_ldDE_nn, loadDE, setDE_visible, advance_visible, complete_visible, loadDE]
  | ldHL nn => rw [exec_ldHL_nn, exec_ldHL_nn, loadHL, setHL_visible, advance_visible, complete_visible, loadHL]
  | ldReg dst src =>
    rw [exec_ldReg, exec_ldReg, moveReg, visible_reg, setReg_visible, advance_visible, complete_visible, moveReg]
  | ldFromMem r => rw [exec_ldFromMem, exec_ldFromMem, loadFromHL_visible, complete_visible]
  | ldToMem r => rw [exec_ldToMem, exec_ldToMem, storeToHL_visible, complete_visible]
  | addA r => rw [exec_addA, exec_addA, visible_reg, addToA_visible, complete_visible]
  | cpReg r => rw [exec_cpReg, exec_cpReg, visible_reg, compareA_visible, complete_visible]
  | cp_n n => rw [exec_cp_n, exec_cp_n, compareA_visible, complete_visible]
  | jp nn => exact complete_visible (Instr.opcode (.jp_nn nn)) s (.ok (jumpTo nn s))
  | jpZ nn => rw [exec_jpZ_nn, exec_jpZ_nn, visible_condZ, jumpIf_visible, complete_visible]
  | jpNZ nn => rw [exec_jpNZ_nn, exec_jpNZ_nn, visible_condNZ, jumpIf_visible, complete_visible]
  | call nn => rw [exec_call_nn, exec_call_nn, callTo_visible, complete_visible]
  | ret => rw [exec_ret, exec_ret, returnFromCall_visible, complete_visible]
  | retZ => rw [exec_retZ, exec_retZ, visible_condZ, returnIf_visible, complete_visible]
  | retNZ => rw [exec_retNZ, exec_retNZ, visible_condNZ, returnIf_visible, complete_visible]

/-- The event an unknown opcode emits is itself hidden. -/
theorem execUnknown_visible (op : Byte) (s : State) :
    visibleOutcome (execUnknown op s.visible) = visibleOutcome (execUnknown op s) := by
  unfold execUnknown
  by_cases h : s.pc.toNat + 1 ≤ 0xFFFF
  · rw [advance_of_fits (t := emit _ s) h, advance_of_fits (t := emit _ s.visible) h]
    simp only [complete, visibleOutcome, visible_retire]
    rfl
  · have hover : 0xFFFF < s.pc.toNat + 1 := by omega
    rw [advance_of_not (t := emit _ s) hover, advance_of_not (t := emit _ s.visible) hover]
    rfl

/-- A step depends on the visible state alone, for a machine in range. -/
theorem step_visible {s : State} (hw : s.cfg.wellFormed = true) :
    visibleOutcome (step s.visible) = visibleOutcome (step s) := by
  have hw' : s.visible.cfg.wellFormed = true := by
    obtain ⟨hsize, -⟩ := (Config.wellFormed_iff _).1 hw
    exact (Config.wellFormed_iff _).2 ⟨hsize, Nat.le_refl 1⟩
  by_cases hr : s.run = .running
  · rw [step_of_running hw hr, step_of_running hw' hr, fetch_visible]
    cases fetch s with
    | bounds x op => rfl
    | unknown op => exact execUnknown_visible op s
    | instr i => exact exec_visible i s
  · rw [step_of_stopped hw hr, step_of_stopped hw' hr]
    rfl

end Sys2Proof.Machine

namespace Sys2Proof.Proofs

open Sys2Proof.Machine

/-- Settles O47: both steps answer a next state, and each is, up to the hidden part, the step of the visible state. -/
theorem hiddenStateChangesNoResult : Obligations.HiddenStateChangesNoResult := by
  intro s t hs ht hsame
  obtain ⟨s', hs', -⟩ := step_result hs
  obtain ⟨t', ht', -⟩ := step_result ht
  refine ⟨s', t', hs', ht', (sameCore_iff_visible_eq s' t').2 ?_⟩
  apply Host.Outcome.next.inj (φ := Fault) (ρ := Refusal)
  calc Host.Outcome.next s'.visible
      = visibleOutcome (step s) := by rw [hs', visibleOutcome]
    _ = visibleOutcome (step s.visible) := (step_visible hs).symm
    _ = visibleOutcome (step t.visible) := by rw [(sameCore_iff_visible_eq s t).1 hsame]
    _ = visibleOutcome (step t) := step_visible ht
    _ = Host.Outcome.next t'.visible := by rw [ht', visibleOutcome]

end Sys2Proof.Proofs
end

section
/-! The opcode map read from the encoder's side: the row of an instruction's opcode byte is that instruction's. -/

namespace Sys2Proof

/-- The instruction is the format's, with some operand. -/
def Form.Makes : Form → Instr → Prop
  | .f1 j, i => i = j
  | .f2 mk, i => ∃ n, i = mk n
  | .f3 mk, i => ∃ nn, i = mk nn

/-- The row found for an instruction's opcode byte makes that instruction (30_encoding.md R89). -/
theorem decodeOp_opcode (i : Instr) : ∃ f, decodeOp i.opcode = some f ∧ f.Makes i := by
  induction i using Instr.form_cases with
  | nop | halt | ret | retZ | retNZ => exact ⟨_, rfl, rfl⟩
  | ldReg dst src => cases dst <;> cases src <;> exact ⟨_, rfl, rfl⟩
  | ldFromMem r | ldToMem r | addA r | cpReg r => cases r <;> exact ⟨_, rfl, rfl⟩
  | ldImm r n => cases r <;> exact ⟨_, rfl, n, rfl⟩
  | cp_n n => exact ⟨_, rfl, n, rfl⟩
  | ldDE nn | ldHL nn | jp nn | jpZ nn | jpNZ nn | call nn => exact ⟨_, rfl, nn, rfl⟩

/-- An instruction of one byte is all of its row: its format reads no operand. -/
theorem decodeOp_of_encode_singleton {i : Instr} {b : Byte} (h : encode i = [b]) : decodeOp b = some (.f1 i) := by
  have hop : i.opcode = b := (List.cons.inj h).1
  obtain ⟨f, hf, hmakes⟩ := decodeOp_opcode i
  have hrow := decodeOp_rowEncodes hf
  rw [hop] at hf
  cases f with
  | f1 j => rw [hf, show i = j from hmakes]
  | f2 mk =>
    obtain ⟨n, rfl⟩ := hmakes
    cases h.symm.trans (hrow n)
  | f3 mk =>
    obtain ⟨nn, rfl⟩ := hmakes
    cases h.symm.trans (hrow nn)

end Sys2Proof
end

section
/-! A write that succeeds, and what is read after it: by a data read, by the renderer and by the fetch stage. -/

namespace Sys2Proof.Machine

/-! ### Reads after a write (20_memory.md R56) -/

section
variable {s t : State} {x y : Int} {v : Byte}

theorem memRead_memWrite_same (h : memWrite x v s = .ok t) : memRead x t = .ok v := by
  obtain ⟨hin, rfl⟩ := memWrite_eq_ok h
  rw [memRead_of_inMemory (by exact hin), Memory.read_write_same]

theorem memRead_memWrite_other (h : memWrite x v s = .ok t) (hy : y ≠ x) : memRead y t = memRead y s := by
  obtain ⟨hin, rfl⟩ := memWrite_eq_ok h
  by_cases hiny : 0 ≤ y ∧ y < s.cfg.memSize
  · have hne : y.toNat ≠ x.toNat := by omega
    rw [memRead_of_inMemory hiny, memRead_of_inMemory (by exact hiny), Memory.read_write_other _ _ hne]
  · rw [memRead_of_not hiny, memRead_of_not (by exact hiny)]

/-- A write touches memory alone. -/
theorem memWrite_frame (h : memWrite x v s = .ok t) : t = { s with mem := t.mem } := by
  obtain ⟨-, rfl⟩ := memWrite_eq_ok h
  rfl

end

/-! ### Reads look at memory alone -/

@[simp] theorem memRead_jumpTo (x : Int) (target : Word) (s : State) : memRead x (jumpTo target s) = memRead x s := rfl

@[simp] theorem memRead_retire (x : Int) (s : State) : memRead x (retire s) = memRead x s := by
  simp [memRead, inMemory]

/-! ### A store that completes -/

theorem writeAtHL_completes {s : State} (v : Byte) (h : s.hl.toNat < s.cfg.memSize) :
    ∃ t, writeAtHL v s = .ok t :=
  ⟨_, memWrite_of_inMemory v ⟨Int.natCast_nonneg _, Int.ofNat_lt.2 h⟩⟩

/-- `LD (HL),r` with `HL` inside memory and a successor that fits: the write, the next `PC` and the counting. -/
theorem exec_ldToMem_of_fits {r : Reg} {s t : State} (h : writeAtHL (s.reg r) s = .ok t)
    (hfit : s.pc.toNat + 1 ≤ 0xFFFF) : exec (.ldToMem r) s = .next (retire (jumpTo (s.pc + 1) t)) := by
  have hpc : t.pc = s.pc := by rw [memWrite_frame h]
  have hadvance := advance_of_fits (t := t) (len := 1) (by rwa [hpc])
  rw [exec_ldToMem, storeToHL, h]
  simp only [hadvance, hpc]
  rfl

/-! ### The renderer's view (60_exceptions.md R232) -/

theorem videoCell_of_onScreen {x y : Nat} {s : State} (hx : x < s.cfg.screenW) (hy : y < s.cfg.screenH) :
    videoCell x y s = (memRead (videoAddr s.cfg x y) s).toOption :=
  if_pos ⟨hx, hy⟩

/-- Two states with the same parameters show the same in a cell whose address reads the same. -/
theorem videoCell_congr {x y : Nat} {s t : State} (hcfg : t.cfg = s.cfg)
    (hread : memRead (videoAddr s.cfg x y) t = memRead (videoAddr s.cfg x y) s) : videoCell x y t = videoCell x y s := by
  rw [videoCell, videoCell, hcfg, hread]

/-! ### The fetch stage -/

/-- The byte at `PC` is all the fetch stage needs for an instruction of one byte. -/
theorem fetch_of_encode_singleton {s : State} {i : Instr} {b : Byte} (hread : memRead s.pc.toNat s = .ok b)
    (henc : encode i = [b]) : fetch s = .instr i := by
  simp only [fetch, hread, decodeOp_of_encode_singleton henc, fetchOperands]

end Sys2Proof.Machine

namespace Sys2Proof.Proofs

open Sys2Proof.Machine Sys2Proof.Claims

/-- Settles O48: after the store `PC` is at the address written, so the fetch stage reads the register's byte. -/
theorem storeIsSeenByNextFetch : Obligations.StoreIsSeenByNextFetch := by
  rintro r s i ⟨hw, hr⟩ hnext hin henc
  obtain ⟨u, hu⟩ := writeAtHL_completes (s.reg r) hin
  have hfit : s.pc.toNat + 1 ≤ 0xFFFF := by
    have := s.hl.isLt
    omega
  have hpc : (s.pc + 1).toNat = s.hl.toNat := (word_add_toNat (k := 1) hfit).trans hnext.symm
  refine ⟨_, exec_ldToMem_of_fits hu hfit, ?_⟩
  have hfetch : fetch (retire (jumpTo (s.pc + 1) u)) = .instr i := by
    apply fetch_of_encode_singleton _ henc
    rw [retire_pc, jumpTo_pc, hpc, memRead_retire, memRead_jumpTo]
    exact memRead_memWrite_same hu
  obtain ⟨hw', hr'⟩ : Ready (retire (jumpTo (s.pc + 1) u)) := by
    rw [Ready, retire_cfg, jumpTo_cfg, retire_run, jumpTo_run, memWrite_frame hu]
    exact ⟨hw, hr⟩
  rw [step_of_running hw' hr', hfetch]

/-- Settles O19: the two cases of `inMemory`, with the rules for a read after a write. -/
theorem accessPrimitives : Obligations.AccessPrimitives := by
  intro s x v
  constructor
  · intro hin
    have hwrite := memWrite_of_inMemory v hin
    exact ⟨memRead_of_inMemory hin, _, hwrite, memRead_memWrite_same hwrite,
      fun y hy => memRead_memWrite_other hwrite hy, memWrite_frame hwrite⟩
  · intro hout
    have hnot : ¬(0 ≤ x ∧ x < s.cfg.memSize) := by omega
    exact ⟨memRead_of_not hnot, memWrite_of_not v hnot⟩

/-- Settles O49: the renderer reads memory at the cell's address, so the rules for a read after a write are the view's. -/
theorem storeShowsInVideoPlane : Obligations.StoreShowsInVideoPlane := by
  intro r s x y hfit hin hx hy haddr
  obtain ⟨u, hu⟩ := writeAtHL_completes (s.reg r) hin
  have hcfg : (retire (jumpTo (s.pc + 1) u)).cfg = s.cfg := by
    rw [retire_cfg, jumpTo_cfg, memWrite_frame hu]
  refine ⟨_, exec_ldToMem_of_fits hu hfit, ?_, ?_⟩
  · rw [videoCell_of_onScreen (by rwa [hcfg]) (by rwa [hcfg]), hcfg, haddr, memRead_retire, memRead_jumpTo,
      memRead_memWrite_same hu]
    rfl
  · intro x' y' hother
    apply videoCell_congr hcfg
    rw [memRead_retire, memRead_jumpTo]
    exact memRead_memWrite_other hu (by exact_mod_cast hother)

end Sys2Proof.Proofs
end

section
/-! The decoder, said once per format and from both sides: with the encoder it is a round trip in each direction, and
the bytes it has no instruction for are those of the listed ranges. -/

namespace Sys2Proof

open Sys2Proof.Claims

/-! ### What a byte string decodes to, by the format of its first byte (30_encoding.md R82, R92) -/

section
variable {op : Byte}

theorem decode_of_f1 {i : Instr} (h : decodeOp op = some (.f1 i)) (rest : List Byte) :
    decode (op :: rest) = .instr i rest := by
  simp only [decode, h]

theorem decode_of_f2 {mk : Byte → Instr} (h : decodeOp op = some (.f2 mk)) (n : Byte) (rest : List Byte) :
    decode (op :: n :: rest) = .instr (mk n) rest := by
  simp only [decode, h]

theorem decode_of_f3 {mk : Word → Instr} (h : decodeOp op = some (.f3 mk)) (lo hi : Byte) (rest : List Byte) :
    decode (op :: lo :: hi :: rest) = .instr (mk (joinBytes hi lo)) rest := by
  simp only [decode, h]

theorem decode_of_unknown (h : decodeOp op = none) (rest : List Byte) :
    decode (op :: rest) = .unknownOpcode op rest := by
  simp only [decode, h]

end

/-- The byte strings that begin with an instruction: by format, its opcode byte, its operand bytes, then the rest. -/
inductive DecodesTo : Instr → List Byte → List Byte → Prop where
  | f1 {op : Byte} {i : Instr} (rest : List Byte) : decodeOp op = some (.f1 i) → DecodesTo i rest (op :: rest)
  | f2 {op : Byte} {mk : Byte → Instr} (n : Byte) (rest : List Byte) :
    decodeOp op = some (.f2 mk) → DecodesTo (mk n) rest (op :: n :: rest)
  | f3 {op : Byte} {mk : Word → Instr} (lo hi : Byte) (rest : List Byte) :
    decodeOp op = some (.f3 mk) → DecodesTo (mk (joinBytes hi lo)) rest (op :: lo :: hi :: rest)

/-- An instruction answered comes from a string that holds all of it: no other branch of the decoder answers one. -/
theorem decode_eq_instr {bytes rest : List Byte} {i : Instr} (h : decode bytes = .instr i rest) :
    DecodesTo i rest bytes := by
  unfold decode at h
  split at h
  · cases h
  next op tail =>
  split at h
  · cases h
  · next j hf =>
    cases h
    exact .f1 _ hf
  · next mk hf =>
    split at h
    · next n tail' =>
      cases h
      exact .f2 n _ hf
    · cases h
  · next mk hf =>
    split at h
    · next lo hi tail' =>
      cases h
      exact .f3 lo hi _ hf
    · cases h

/-! ### The two round trips -/

/-- The row of an instruction's opcode byte reads back the operand bytes the encoder wrote. -/
theorem decode_encode_append (i : Instr) (rest : List Byte) : decode (encode i ++ rest) = .instr i rest := by
  obtain ⟨f, hf, hmakes⟩ := decodeOp_opcode i
  have hrow := decodeOp_rowEncodes hf
  generalize i.opcode = op at hf hrow
  cases f with
  | f1 j =>
    obtain rfl : i = j := hmakes
    rw [show encode i = [op] from hrow]
    exact decode_of_f1 hf rest
  | f2 mk =>
    obtain ⟨n, rfl⟩ := hmakes
    rw [hrow n]
    exact decode_of_f2 hf n rest
  | f3 mk =>
    obtain ⟨nn, rfl⟩ := hmakes
    rw [hrow nn]
    simpa using decode_of_f3 hf (loByte nn) (hiByte nn) rest

/-- A string that begins with an instruction begins with its encoding. -/
theorem DecodesTo.eq_encode_append {i : Instr} {rest bytes : List Byte} (h : DecodesTo i rest bytes) :
    bytes = encode i ++ rest := by
  cases h with
  | f1 rest hf =>
    rw [decodeOp_rowEncodes hf]
    rfl
  | f2 n rest hf =>
    rw [decodeOp_rowEncodes hf n]
    rfl
  | f3 lo hi rest hf =>
    rw [decodeOp_rowEncodes hf _, loByte_joinBytes, hiByte_joinBytes]
    rfl

/-! ### The unknown opcode bytes (30_encoding.md R92) -/

theorem findForm_eq_none_iff {op : Byte} {m : List (Byte × Form)} :
    findForm op m = none ↔ op ∉ m.map Prod.fst := by
  induction m with
  | nil => simp [findForm]
  | cons row rest ih =>
    obtain ⟨k, f⟩ := row
    rw [List.map_cons, List.mem_cons, not_or, ← ih, findForm]
    by_cases hk : k = op
    · simp [hk]
    · simp [hk, Ne.symm hk]

/-- The numbers of the map's bytes, in the map's order. -/
def opcodeNumbers : List Nat := opcodeMap.map fun row => row.1.toNat

/-- The numbers of the listed ranges, one by one. -/
def unknownNumbers : List Nat := unknownRanges.flatMap fun r => List.range' r.1 (r.2 + 1 - r.1)

theorem count_opcodeNumbers (op : Byte) : opcodeNumbers.count op.toNat = (opcodeMap.map Prod.fst).count op := by
  have hmap : opcodeNumbers = (opcodeMap.map Prod.fst).map BitVec.toNat := (List.map_map ..).symm
  rw [hmap]
  exact List.count_map_of_injective _ BitVec.toNat (fun _ _ => BitVec.eq_of_toNat_eq) op

theorem mem_unknownNumbers {n : Nat} : n ∈ unknownNumbers ↔ ∃ r ∈ unknownRanges, r.1 ≤ n ∧ n ≤ r.2 := by
  have hrange (r : Nat × Nat) : n ∈ List.range' r.1 (r.2 + 1 - r.1) ↔ r.1 ≤ n ∧ n ≤ r.2 := by
    rw [List.mem_range'_1]
    omega
  simp only [unknownNumbers, List.mem_flatMap, hrange]

/-- Row by row of the opcode grid, by high nibble: the map and the listed ranges fill the sixteen places, each once. -/
theorem opcodeGrid_row_filled : ∀ hi < 16,
    ((opcodeNumbers ++ unknownNumbers).filter (· / 16 = hi)).insertionSort (· ≤ ·) = List.range' (16 * hi) 16 := by
  decide

/-- Every byte stands once in the map and the listed ranges together. -/
theorem count_opcodeNumbers_add_unknownNumbers (op : Byte) :
    opcodeNumbers.count op.toNat + unknownNumbers.count op.toNat = 1 := by
  generalize hn : op.toNat = n
  have hlt : n < 256 := hn ▸ op.isLt
  have hrow := opcodeGrid_row_filled (n / 16) (by omega)
  have hplace : n ∈ List.range' (16 * (n / 16)) 16 := List.mem_range'_1.2 (by omega)
  calc opcodeNumbers.count n + unknownNumbers.count n
      = (opcodeNumbers ++ unknownNumbers).count n := List.count_append.symm
    _ = ((opcodeNumbers ++ unknownNumbers).filter (· / 16 = n / 16)).count n :=
        (List.count_filter (by simp)).symm
    _ = (List.range' (16 * (n / 16)) 16).count n := by
        rw [← hrow, (List.perm_insertionSort _ _).count_eq]
    _ = 1 := List.count_eq_one_of_mem List.nodup_range' hplace

/-- A byte has no row exactly when it lies in a listed range. -/
theorem decodeOp_eq_none_iff (op : Byte) :
    decodeOp op = none ↔ ∃ r ∈ unknownRanges, r.1 ≤ op.toNat ∧ op.toNat ≤ r.2 := by
  have honce := count_opcodeNumbers_add_unknownNumbers op
  rw [decodeOp, findForm_eq_none_iff, ← List.count_eq_zero (l := opcodeMap.map Prod.fst), ← count_opcodeNumbers,
    ← mem_unknownNumbers, ← List.count_pos_iff (l := unknownNumbers)]
  omega

theorem opcodeMap_bytes_nodup : (opcodeMap.map Prod.fst).Nodup := by
  refine List.nodup_iff_count_le_one.2 fun op => ?_
  have honce := count_opcodeNumbers_add_unknownNumbers op
  rw [← count_opcodeNumbers]
  omega

end Sys2Proof

namespace Sys2Proof.Proofs

open Sys2Proof.Claims

/-- Settles O1: the row of the opcode byte is the instruction's, and it reads back the operand bytes. -/
theorem decodeOfEncode : Obligations.DecodeOfEncode := decode_encode_append

/-- Settles O2: whichever branch answered the instruction, the bytes it read are those the encoder writes. -/
theorem encodeOfDecode : Obligations.EncodeOfDecode :=
  fun _ _ _ h => (decode_eq_instr h).eq_encode_append

/-- Settles O3, by running the decoder on each word. -/
theorem specWordsDecode : Obligations.SpecWordsDecode := by
  unfold Obligations.SpecWordsDecode
  decide

/-- Settles O4: a byte has no row in the map exactly when it lies in a listed range, and then it is skipped alone. -/
theorem unknownOpcodeBytes : Obligations.UnknownOpcodeBytes :=
  ⟨decodeOp_eq_none_iff, rfl, fun _ rest h => decode_of_unknown h rest⟩

/-- Settles O5: the rows are counted, and the map and the listed ranges together hold no byte twice. -/
theorem opcodeMapRows : Obligations.OpcodeMapRows := ⟨rfl, opcodeMap_bytes_nodup⟩

end Sys2Proof.Proofs
end

section
/-! The flag derivation, said once per flag (40_flag_derivation.md): first the numbers behind the bits of a byte and the
wrapped sum and difference, then each flag the derivation computes, then the whole sets on the wrapped results. -/

namespace Sys2Proof.Machine

open Sys2Proof.Claims

/-! ### Bytes as numbers -/

theorem lowNibble_eq_mod (v : Byte) : lowNibble v = v.toNat % 16 := by
  rw [lowNibble, BitVec.toNat_and]
  exact Nat.and_two_pow_sub_one_eq_mod v.toNat 4

theorem byte_bit7_iff (v : Byte) : v.getLsbD 7 = true ↔ 128 ≤ v.toNat := by
  have hmsb : v.msb = v.getLsbD 7 := BitVec.msb_eq_getLsbD_last v
  rw [← hmsb, BitVec.msb_eq_decide, decide_eq_true_iff]

theorem byte_beq_zero_iff (v : Byte) : (v == 0#8) = true ↔ v.toNat = 0 := by
  rw [beq_iff_eq, ← BitVec.toNat_inj, BitVec.toNat_ofNat, Nat.zero_mod]

theorem byte_sub_toNat (a b : Byte) : (a - b).toNat = (a.toNat + 256 - b.toNat) % 256 := by
  have hb := b.isLt
  rw [BitVec.toNat_sub]
  congr 1
  omega

/-- The wrapped sum lies below its first operand exactly when the sum does not fit a byte (R114). -/
theorem byte_add_lt_left_iff (a b : Byte) : (a + b).toNat < a.toNat ↔ a.toNat + b.toNat > 255 := by
  have ha := a.isLt
  have hb := b.isLt
  rw [BitVec.toNat_add]
  omega

/-- The wrapped difference is zero exactly when the operands agree (R111, R114). -/
theorem byte_sub_toNat_eq_zero_iff (a b : Byte) : (a - b).toNat = 0 ↔ a = b := by
  rw [← byte_beq_zero_iff, beq_iff_eq]
  exact sub_eq_zero

/-! ### The computed flags, for any result -/

section
variable (a b result : Byte)

theorem deriveAdd_zero_iff : (deriveAdd a b result).zero = true ↔ result.toNat = 0 := byte_beq_zero_iff result

theorem deriveAdd_sign_iff : (deriveAdd a b result).sign = true ↔ 128 ≤ result.toNat := byte_bit7_iff result

theorem deriveAdd_carry_iff : (deriveAdd a b result).carry = true ↔ result.toNat < a.toNat := decide_eq_true_iff

theorem deriveAdd_halfCarry_iff :
    (deriveAdd a b result).halfCarry = true ↔ a.toNat % 16 + b.toNat % 16 > 15 := by
  rw [← lowNibble_eq_mod, ← lowNibble_eq_mod]
  exact decide_eq_true_iff

theorem deriveSub_zero_iff : (deriveSub a b result).zero = true ↔ result.toNat = 0 := byte_beq_zero_iff result

theorem deriveSub_sign_iff : (deriveSub a b result).sign = true ↔ 128 ≤ result.toNat := byte_bit7_iff result

theorem deriveSub_carry_iff : (deriveSub a b result).carry = true ↔ a.toNat < b.toNat := decide_eq_true_iff

theorem deriveSub_halfCarry_iff :
    (deriveSub a b result).halfCarry = true ↔ a.toNat % 16 < b.toNat % 16 := by
  rw [← lowNibble_eq_mod, ← lowNibble_eq_mod]
  exact decide_eq_true_iff

end

/-! ### The whole sets, on the wrapped results -/

/-- Zero and Sign are read off the wrapped sum, and the two formulas of Carry agree on it. -/
theorem addFlags_deriveAdd (a b : Byte) : AddFlags a b (deriveAdd a b (a + b)) := by
  refine ⟨?zero, ?sign, deriveAdd_halfCarry_iff a b _, ?carry, rfl, rfl⟩
  case zero => rw [deriveAdd_zero_iff, BitVec.toNat_add]
  case sign => rw [deriveAdd_sign_iff, BitVec.toNat_add]
  case carry => rw [deriveAdd_carry_iff, byte_add_lt_left_iff]

/-- Sign is read off the wrapped difference; Half-Carry and Carry compare the operands alone. -/
theorem subFlags_deriveSub (a b : Byte) : SubFlags a b (deriveSub a b (a - b)) := by
  refine ⟨?zero, ?sign, deriveSub_halfCarry_iff a b _, deriveSub_carry_iff a b _, rfl, rfl⟩
  case zero => rw [deriveSub_zero_iff, byte_sub_toNat_eq_zero_iff]
  case sign => rw [deriveSub_sign_iff, byte_sub_toNat]

end Sys2Proof.Machine

namespace Sys2Proof.Proofs

open Sys2Proof.Machine

/-- Settles O16: the flags' formulas on the wrapped sum, and Carry once more by the comparison it is computed from. -/
theorem deriveAddFlags : Obligations.DeriveAddFlags :=
  fun a b => ⟨addFlags_deriveAdd a b, deriveAdd_carry_iff a b (a + b)⟩

/-- Settles O17: the flags' formulas on the wrapped difference, and Zero once more by the number it is computed from. -/
theorem deriveSubFlags : Obligations.DeriveSubFlags :=
  fun a b => ⟨subFlags_deriveSub a b, deriveSub_zero_iff a b (a - b)⟩

end Sys2Proof.Proofs
end

section
/-! The stack engine (41_stack_engine.md): when a push or a pop completes or raises, what a completed push leaves, and
what is popped later, from the very state the push left and after any number of further pushes. -/

namespace Sys2Proof.Machine

open Sys2Proof.Claims

/-! ### When a push or a pop completes, and what it raises otherwise (R121, R122) -/

theorem push_of_sp_outside (v : Word) {s : State} (hout : s.cfg.memSize ≤ s.sp.toNat) :
    push v s = .error s.sp.toNat := by
  cases h : push v s with
  | error y =>
    have hy : y = s.sp.toNat := by have := push_eq_error h; omega
    rw [hy]
  | ok t =>
    obtain ⟨-, hin, -⟩ := push_eq_ok h
    omega

theorem push_of_sp_bottom (v : Word) {s : State} (hin : s.sp.toNat < s.cfg.memSize) (hlow : s.sp.toNat ≤ 1) :
    push v s = .error (-1) := by
  cases h : push v s with
  | error y =>
    have hy : y = -1 := by have := push_eq_error h; omega
    rw [hy]
  | ok t =>
    obtain ⟨hroom, -, -⟩ := push_eq_ok h
    omega

theorem push_completes (v : Word) {s : State} (hin : s.sp.toNat < s.cfg.memSize) (hroom : 2 ≤ s.sp.toNat) :
    ∃ t, push v s = .ok t := by
  cases h : push v s with
  | error y =>
    have := push_eq_error h
    omega
  | ok t => exact ⟨t, rfl⟩

theorem pop_of_high_outside {s : State} (hout : s.cfg.memSize ≤ s.sp.toNat + 1) :
    pop s = .error (s.sp.toNat + 1) := by
  cases h : pop s with
  | error y =>
    have hy : y = s.sp.toNat + 1 := by have := pop_eq_error h; omega
    rw [hy]
  | ok p =>
    obtain ⟨hin, -, -⟩ := pop_eq_ok h
    omega

theorem pop_of_low_outside {s : State} (hin : s.sp.toNat + 1 < s.cfg.memSize)
    (hout : s.cfg.memSize ≤ s.sp.toNat + 2) : pop s = .error (s.sp.toNat + 2) := by
  cases h : pop s with
  | error y =>
    have hy : y = s.sp.toNat + 2 := by have := pop_eq_error h; omega
    rw [hy]
  | ok p =>
    obtain ⟨hin', -, -⟩ := pop_eq_ok h
    omega

theorem pop_of_inMemory {s : State} (hin : s.sp.toNat + 2 < s.cfg.memSize) :
    pop s = .ok (joinBytes (s.mem.read (s.sp.toNat + 1)) (s.mem.read (s.sp.toNat + 2)), { s with sp := s.sp + 2 }) := by
  cases h : pop s with
  | error y =>
    have := pop_eq_error h
    omega
  | ok p =>
    obtain ⟨-, hv, ht⟩ := pop_eq_ok h
    rw [← hv, ← ht]

/-! ### What a completed push leaves -/

section
variable {v : Word} {s t : State}

theorem push_sp (h : push v s = .ok t) : t.sp = s.sp - 2 := by
  obtain ⟨-, -, rfl⟩ := push_eq_ok h
  rfl

/-- The stack pointer goes down by 2 without a wrap. -/
theorem push_sp_toNat (h : push v s = .ok t) : t.sp.toNat + 2 = s.sp.toNat := by
  obtain ⟨hroom, -, -⟩ := push_eq_ok h
  rw [push_sp h, BitVec.toNat_sub_of_le (by simpa [BitVec.le_def] using hroom)]
  exact Nat.sub_add_cancel hroom

theorem push_frame (h : push v s = .ok t) : t = { s with mem := t.mem, sp := t.sp } := by
  obtain ⟨-, -, rfl⟩ := push_eq_ok h
  rfl

theorem push_read_low (h : push v s = .ok t) : t.mem.read s.sp.toNat = loByte v := by
  obtain ⟨hroom, -, rfl⟩ := push_eq_ok h
  have hne : s.sp.toNat ≠ s.sp.toNat - 1 := by omega
  simp only [Memory.read_write_other _ _ hne, Memory.read_write_same]

theorem push_read_high (h : push v s = .ok t) : t.mem.read (s.sp.toNat - 1) = hiByte v := by
  obtain ⟨-, -, rfl⟩ := push_eq_ok h
  exact Memory.read_write_same _ _ _

theorem push_read_other (h : push v s = .ok t) {x : Nat} (hlow : x ≠ s.sp.toNat) (hhigh : x ≠ s.sp.toNat - 1) :
    t.mem.read x = s.mem.read x := by
  obtain ⟨-, -, rfl⟩ := push_eq_ok h
  simp only [Memory.read_write_other _ _ hhigh, Memory.read_write_other _ _ hlow]

/-! ### The value popped later (R123) -/

/-- The value comes back in any later state of the same memory size that has the push's `SP` and its two stack bytes. -/
theorem pop_of_pushed {u : State} (h : push v s = .ok t) (hsize : u.cfg.memSize = s.cfg.memSize) (hsp : u.sp = t.sp)
    (hlow : u.mem.read s.sp.toNat = t.mem.read s.sp.toNat)
    (hhigh : u.mem.read (s.sp.toNat - 1) = t.mem.read (s.sp.toNat - 1)) :
    pop u = .ok (v, { u with sp := s.sp }) := by
  obtain ⟨-, hin, -⟩ := push_eq_ok h
  have htop : u.sp.toNat + 2 = s.sp.toNat := by rw [hsp, push_sp_toNat h]
  have hmid : u.sp.toNat + 1 = s.sp.toNat - 1 := by omega
  have hback : u.sp + 2 = s.sp := by rw [hsp, push_sp h, BitVec.sub_add_cancel]
  rw [pop_of_inMemory (by omega), htop, hmid, hlow, hhigh, push_read_low h, push_read_high h, joinBytes_hi_lo, hback]

end

/-! ### A series of pushes, and as many pops -/

section
variable {vs : List Word} {s t : State}

/-- A series that completes begins with a push that completes. -/
theorem pushAll_cons_eq_ok {v : Word} (h : pushAll (v :: vs) s = .ok t) :
    ∃ s', push v s = .ok s' ∧ pushAll vs s' = .ok t := by
  rw [pushAll] at h
  cases hpush : push v s with
  | error y =>
    rw [hpush] at h
    cases h
  | ok s' =>
    rw [hpush] at h
    exact ⟨s', rfl, h⟩

theorem pushAll_cfg (h : pushAll vs s = .ok t) : t.cfg = s.cfg := by
  induction vs generalizing s with
  | nil =>
    cases h
    rfl
  | cons v vs ih =>
    obtain ⟨s', hpush, hrest⟩ := pushAll_cons_eq_ok h
    rw [ih hrest, push_frame hpush]

/-- Pushes write at and below the stack pointer they start from. -/
theorem pushAll_read_above (h : pushAll vs s = .ok t) {x : Nat} (hx : s.sp.toNat < x) :
    t.mem.read x = s.mem.read x := by
  induction vs generalizing s with
  | nil =>
    cases h
    rfl
  | cons v vs ih =>
    obtain ⟨s', hpush, hrest⟩ := pushAll_cons_eq_ok h
    have hsp := push_sp_toNat hpush
    rw [ih hrest (by omega), push_read_other hpush (by omega) (by omega)]

theorem popAll_succ {k : Nat} {v : Word} {ws : List Word} {u : State} (hpop : pop s = .ok (v, t))
    (hrest : popAll k t = .ok (ws, u)) : popAll (k + 1) s = .ok (v :: ws, u) := by
  simp only [popAll, hpop, hrest]

/-- Pops that go past the pushed values go on from the memory the pushes left and the `SP` they started from. The `k`
pops beyond are what the induction needs: the first value pushed is the last of its series to be popped. -/
theorem popAll_of_pushAll (h : pushAll vs s = .ok t) {k : Nat} {ws : List Word} {u : State}
    (hbeyond : popAll k { t with sp := s.sp } = .ok (ws, u)) :
    popAll (vs.length + k) t = .ok (vs.reverse ++ ws, u) := by
  induction vs generalizing s k ws with
  | nil =>
    cases h
    simpa using hbeyond
  | cons v vs ih =>
    obtain ⟨s', hpush, hrest⟩ := pushAll_cons_eq_ok h
    have hsp := push_sp_toNat hpush
    have hsize : t.cfg.memSize = s.cfg.memSize := by rw [pushAll_cfg hrest, push_frame hpush]
    have hpop : pop { t with sp := s'.sp } = .ok (v, { t with sp := s.sp }) :=
      pop_of_pushed hpush hsize rfl (pushAll_read_above hrest (by omega)) (pushAll_read_above hrest (by omega))
    have hpops := ih hrest (popAll_succ hpop hbeyond)
    rw [List.length_cons, Nat.add_right_comm, List.reverse_cons, List.append_assoc]
    exact hpops

end

end Sys2Proof.Machine

namespace Sys2Proof.Proofs

open Sys2Proof.Machine

/-- Settles O20: the three cases of the stack pointer, with the rules for what a completed push leaves. -/
theorem pushRule : Obligations.PushRule := by
  intro v s
  refine ⟨push_of_sp_outside v, push_of_sp_bottom v, fun hin hroom => ?_⟩
  obtain ⟨t, h⟩ := push_completes v hin hroom
  have hsp : t.sp.toNat = s.sp.toNat - 2 := Nat.eq_sub_of_add_eq (push_sp_toNat h)
  exact ⟨t, h, push_read_low h, push_read_high h, hsp, fun _ => push_read_other h, push_frame h⟩

/-- Settles O21: the three cases of the stack pointer; memory's range keeps the new one from wrapping. -/
theorem popRule : Obligations.PopRule := by
  intro s hm
  refine ⟨pop_of_high_outside, pop_of_low_outside, fun hin => ?_⟩
  exact ⟨_, _, pop_of_inMemory hin, joinBytes_toNat _ _, word_add_toNat (k := 2) (by omega), rfl⟩

/-- Settles O22, by the rule for pops that go past the pushed values, with none beyond. -/
theorem stackRoundTrip : Obligations.StackRoundTrip := by
  intro vs s t h
  have hpops := popAll_of_pushAll h (k := 0) rfl
  rw [List.append_nil] at hpops
  exact ⟨{ t with sp := s.sp }, hpops, rfl, fun _ => rfl⟩

end Sys2Proof.Proofs
end

section
/-! Instructions that go on in sequence: the end of a step whose pseudocode ends in the successor (46_execution_loop.md
R199), and the writes of the loads (42_loads.md) carried through it. -/

namespace Sys2Proof.Machine

open Sys2Proof.Claims

/-! ### Going on in sequence -/

/-- The state after a step whose pseudocode wrote `u` and whose successor fits: `PC` moved past the instruction, and the
step counted. -/
def proceed (len : Nat) (u : State) : State := retire (jumpTo (u.pc + BitVec.ofNat 16 len) u)

section
variable {op : Byte} {len : Nat} {s u : State}

theorem complete_advance_of_fits (h : u.pc.toNat + len ≤ 0xFFFF) :
    complete op s (advance len u) = .next (proceed len u) := by
  rw [advance_of_fits h]
  rfl

/-- A successor that does not fit faults the step, and the pseudocode's writes are lost. -/
theorem complete_advance_of_not (hpc : u.pc = s.pc) (h : 0xFFFF < s.pc.toNat + len) :
    complete op s (advance len u) = .next (faultedAt (s.pc.toNat + len) op s) := by
  rw [← hpc] at h
  rw [advance_of_not h, hpc]
  rfl

theorem proceed_pc_toNat (h : u.pc.toNat + len ≤ 0xFFFF) : (proceed len u).pc.toNat = u.pc.toNat + len := by
  rw [proceed, retire_pc, jumpTo_pc, word_add_toNat h]

@[simp] theorem proceed_reg (len : Nat) (u : State) (r : Reg) : (proceed len u).reg r = u.reg r := by simp [proceed]

@[simp] theorem proceed_sp (len : Nat) (u : State) : (proceed len u).sp = u.sp := by simp [proceed]

@[simp] theorem proceed_flags (len : Nat) (u : State) : (proceed len u).flags = u.flags := by simp [proceed]

@[simp] theorem proceed_mem (len : Nat) (u : State) : (proceed len u).mem = u.mem := by simp [proceed]

/-- The yield counter after a completed step that emitted nothing (46_execution_loop.md R202). -/
theorem counted_retire (u : State) : Counted [] u (retire u) :=
  ⟨fun hyield => by simp [retire, hyield], fun hcount => by simp [retire, hcount]⟩

theorem Commits.keepsControl {i : Instr} (hc : Commits i s u) : KeepsControl s (retire u) := by
  have hcount := counted_retire u
  rw [Counted, hc.icount, hc.cfg, hc.events] at hcount
  exact ⟨(retire_run u).trans hc.run, (retire_fault u).trans hc.fault, (retire_cfg u).trans hc.cfg, hcount⟩

theorem Commits.keepsControl_proceed {i : Instr} (hc : Commits i s u) (len : Nat) : KeepsControl s (proceed len u) :=
  (hc.jumpTo _).keepsControl

end

/-! ### One register written -/

/-- A register written and a successor that fits: the frame that `LD r,n`, `LD r,r'` and `LD r,(HL)` share. -/
theorem complete_setReg_of_fits (i : Instr) {len : Nat} {s : State} (r : Reg) (v : Byte)
    (hfit : s.pc.toNat + len ≤ 0xFFFF) :
    ∃ t, complete i.opcode s (advance len (s.setReg r v)) = .next t ∧ t.reg r = v ∧ SameRegsBut [r] s t ∧
      t.pc.toNat = s.pc.toNat + len ∧ t.sp = s.sp ∧ t.flags = s.flags ∧ SameMem s t ∧ KeepsControl s t := by
  rw [← State.setReg_pc s r v] at hfit
  have hothers : SameRegsBut [r] s (proceed len (s.setReg r v)) := by
    intro q hq
    rw [proceed_reg, State.reg_setReg_other s v (List.ne_of_not_mem_cons hq)]
  have hpc := proceed_pc_toNat hfit
  rw [State.setReg_pc] at hpc
  exact ⟨_, complete_advance_of_fits hfit, by simp, hothers, hpc, by simp, by simp, fun x => by simp,
    (Commits.setReg i s r v).keepsControl_proceed len⟩

/-! ### The memory operand -/

section
variable {r : Reg} {s : State}

theorem loadFromHL_of_inside (h : s.hl.toNat < s.cfg.memSize) :
    loadFromHL r s = advance 1 (s.setReg r (s.mem.read s.hl.toNat)) := by
  rw [loadFromHL, readAtHL, memRead_of_inMemory ⟨Int.natCast_nonneg _, Int.ofNat_lt.2 h⟩]
  rfl

theorem loadFromHL_of_outside (h : s.cfg.memSize ≤ s.hl.toNat) : loadFromHL r s = .error s.hl.toNat := by
  rw [loadFromHL, readAtHL, memRead_of_not (by omega)]

theorem storeToHL_of_inside (h : s.hl.toNat < s.cfg.memSize) :
    storeToHL r s = advance 1 { s with mem := s.mem.write s.hl.toNat (s.reg r) } := by
  rw [storeToHL, writeAtHL, memWrite_of_inMemory _ ⟨Int.natCast_nonneg _, Int.ofNat_lt.2 h⟩]
  rfl

theorem storeToHL_of_outside (h : s.cfg.memSize ≤ s.hl.toNat) : storeToHL r s = .error s.hl.toNat := by
  rw [storeToHL, writeAtHL, memWrite_of_not _ (by omega)]

theorem Commits.storeToHL (r : Reg) (h : s.hl.toNat < s.cfg.memSize) :
    Commits (.ldToMem r) s { s with mem := s.mem.write s.hl.toNat (s.reg r) } :=
  ⟨rfl, rfl, rfl, rfl, rfl, .inl rfl, .inr (.inl ⟨r, rfl⟩), .write _ .none h, .inl rfl⟩

theorem reg_withMem (s : State) (m : Memory) (q : Reg) : { s with mem := m }.reg q = s.reg q := by
  cases q <;> rfl

end

end Sys2Proof.Machine

namespace Sys2Proof.Proofs

open Sys2Proof.Machine Sys2Proof.Claims

/-- Settles O23: one register written, and the successor two bytes on. -/
theorem loadImmediate : Obligations.LoadImmediate := by
  intro r n s
  rw [exec_ldImm, ← opcode_ldImm r n]
  exact ⟨complete_setReg_of_fits (.ldImm r n) r n, complete_advance_of_not (State.setReg_pc s r n)⟩

/-- Settles O24: one register written with the source's old value, and the successor one byte on. -/
theorem moveRegister : Obligations.MoveRegister := by
  intro dst src s
  rw [exec_ldReg, ← opcode_ldReg]
  exact ⟨complete_setReg_of_fits (.ldReg dst src) dst (s.reg src), complete_advance_of_not (State.setReg_pc s dst _)⟩

/-- Settles O25: with `HL` inside memory it is one register written with the byte there; with `HL` outside, the read
raises before the successor is looked at. -/
theorem loadFromMemory : Obligations.LoadFromMemory := by
  intro r s
  rw [exec_ldFromMem, ← opcode_ldFromMem]
  refine ⟨fun hin hfit => ?_, fun hout => ?_, fun hin hover => ?_⟩
  · rw [loadFromHL_of_inside hin]
    exact complete_setReg_of_fits (.ldFromMem r) r _ hfit
  · rw [loadFromHL_of_outside hout]
    rfl
  · rw [loadFromHL_of_inside hin]
    exact complete_advance_of_not (State.setReg_pc s r _) hover

/-- Settles O26: with `HL` inside memory one byte is written, and the rules for a read after a write say what memory
holds; with `HL` outside, the write raises before the successor is looked at. -/
theorem storeToMemory : Obligations.StoreToMemory := by
  intro r s
  rw [exec_ldToMem, opcode_ldToMem]
  refine ⟨fun hin hfit => ?_, fun hout => ?_, fun hin hover => ?_⟩
  · rw [storeToHL_of_inside hin]
    refine ⟨_, complete_advance_of_fits hfit, by simp, fun x hx => ?_, fun q _ => ?_, proceed_pc_toNat hfit, by simp,
      by simp, (Commits.storeToHL r hin).keepsControl_proceed 1⟩
    · rw [proceed_mem]
      exact Memory.read_write_other _ _ hx
    · rw [proceed_reg, reg_withMem]
  · rw [storeToHL_of_outside hout]
    rfl
  · rw [storeToHL_of_inside hin]
    exact complete_advance_of_not rfl hover

/-- Settles O27: `H` and `L` written together with the halves of `nn`, and the successor three bytes on. -/
theorem loadPairHL : Obligations.LoadPairHL := by
  intro nn s
  rw [exec_ldHL_nn, loadHL]
  refine ⟨fun hfit => ?_, complete_advance_of_not (State.setHL_pc s nn)⟩
  have hh : (proceed 3 (s.setHL nn)).h = hiByte nn := proceed_reg 3 (s.setHL nn) .h
  have hl : (proceed 3 (s.setHL nn)).l = loByte nn := proceed_reg 3 (s.setHL nn) .l
  have hothers : SameRegsBut [.h, .l] s (proceed 3 (s.setHL nn)) := by
    intro q hq
    obtain ⟨hqh, hql⟩ : q ≠ .h ∧ q ≠ .l := by simpa using hq
    rw [proceed_reg, State.reg_setHL_other s nn hqh hql]
  refine ⟨_, complete_advance_of_fits hfit, ?_, ?_, ?_, hothers, proceed_pc_toNat hfit, by simp, by simp,
    fun x => by simp, (Commits.setHL (.ldHL_nn nn) s nn).keepsControl_proceed 3⟩
  · rw [hh, hiByte_toNat]
  · rw [hl, loByte_toNat]
  · rw [State.hl, hh, hl, joinBytes_hi_lo]

/-- Settles O28: `D` and `E` written together with the halves of `nn`, and the successor three bytes on. -/
theorem loadPairDE : Obligations.LoadPairDE := by
  intro nn s
  rw [exec_ldDE_nn, loadDE]
  refine ⟨fun hfit => ?_, complete_advance_of_not (State.setDE_pc s nn)⟩
  have hd : (proceed 3 (s.setDE nn)).d = hiByte nn := proceed_reg 3 (s.setDE nn) .d
  have he : (proceed 3 (s.setDE nn)).e = loByte nn := proceed_reg 3 (s.setDE nn) .e
  have hothers : SameRegsBut [.d, .e] s (proceed 3 (s.setDE nn)) := by
    intro q hq
    obtain ⟨hqd, hqe⟩ : q ≠ .d ∧ q ≠ .e := by simpa using hq
    rw [proceed_reg, State.reg_setDE_other s nn hqd hqe]
  refine ⟨_, complete_advance_of_fits hfit, ?_, ?_, ?_, hothers, proceed_pc_toNat hfit, by simp, by simp,
    fun x => by simp, (Commits.setDE (.ldDE_nn nn) s nn).keepsControl_proceed 3⟩
  · rw [hd, hiByte_toNat]
  · rw [he, loByte_toNat]
  · rw [State.de, hd, he, joinBytes_hi_lo]

end Sys2Proof.Proofs
end

section
/-! Arithmetic and compare (43_arithmetic_compare.md): the flags an `ADD` or a `CP` writes, and for `ADD` the accumulator,
carried through the successor. -/

namespace Sys2Proof.Machine

open Sys2Proof.Claims

section
variable {i : Instr} {s u : State}

/-- Flags written by an instruction that writes them, on top of what it wrote before. -/
theorem Commits.withFlags (hc : Commits i s u) (hi : WritesFlags i) {f : Flags} (hparity : f.parity = false) :
    Commits i s { u with flags := f } :=
  ⟨hc.cfg, hc.run, hc.fault, hc.icount, hc.events, .inr ⟨hi, hparity⟩, hc.mem, hc.memWritten, hc.sp⟩

/-- What an addition writes, as a write of the register `A` and then of the flags. -/
theorem addToA_eq_advance (b : Byte) (s : State) :
    addToA b s = advance 1 { s.setReg .a (s.a + b) with flags := deriveAdd s.a b (s.a + b) } := rfl

/-- A compare whose successor fits: the frame that `CP r` and `CP n` share. -/
theorem complete_compareA_of_fits (hi : WritesFlags i) (b : Byte) {len : Nat} (hfit : s.pc.toNat + len ≤ 0xFFFF) :
    ∃ t, complete i.opcode s (compareA b len s) = .next t ∧ SubFlags s.a b t.flags ∧ SameRegsBut [] s t ∧
      t.pc.toNat = s.pc.toNat + len ∧ t.sp = s.sp ∧ SameMem s t ∧ KeepsControl s t := by
  have hcommit : Commits i s { s with flags := deriveSub s.a b (s.a - b) } := (Commits.refl i s).withFlags hi rfl
  refine ⟨_, complete_advance_of_fits hfit, ?_, fun q _ => ?_, proceed_pc_toNat hfit, by simp, fun x => by simp,
    hcommit.keepsControl_proceed len⟩
  · rw [proceed_flags]
    exact subFlags_deriveSub s.a b
  · rw [proceed_reg, reg_withFlags]

end

end Sys2Proof.Machine

namespace Sys2Proof.Proofs

open Sys2Proof.Machine Sys2Proof.Claims

/-- Settles O29: `A` and the flags written from the old `A` and the old `r`, and the successor one byte on. -/
theorem addToAccumulator : Obligations.AddToAccumulator := by
  intro r s
  rw [exec_addA, ← opcode_addA, addToA_eq_advance]
  refine ⟨fun hfit => ?_, complete_advance_of_not rfl⟩
  have hcommit : Commits (.addA r) s
      { s.setReg .a (s.a + s.reg r) with flags := deriveAdd s.a (s.reg r) (s.a + s.reg r) } :=
    (Commits.setReg _ s .a _).withFlags (.inl ⟨r, rfl⟩) rfl
  refine ⟨_, complete_advance_of_fits hfit, ?sum, ?flags, fun q hq => ?others, proceed_pc_toNat hfit, by simp,
    fun x => by simp, hcommit.keepsControl_proceed 1⟩
  case sum =>
    rw [← BitVec.toNat_add]
    exact congrArg BitVec.toNat (proceed_reg 1 _ .a)
  case flags =>
    rw [proceed_flags]
    exact addFlags_deriveAdd s.a (s.reg r)
  case others => rw [proceed_reg, reg_withFlags, State.reg_setReg_other s _ (List.ne_of_not_mem_cons hq)]

/-- Settles O30: the frame of a compare with a register, one byte long. -/
theorem compareRegister : Obligations.CompareRegister := by
  intro r s
  rw [exec_cpReg, ← opcode_cpReg]
  exact ⟨complete_compareA_of_fits (.inr (.inl ⟨r, rfl⟩)) (s.reg r), complete_advance_of_not rfl⟩

/-- Settles O31: the frame of a compare with an immediate, two bytes long. -/
theorem compareImmediate : Obligations.CompareImmediate := by
  intro n s
  rw [exec_cp_n]
  exact ⟨complete_compareA_of_fits (.inr (.inr ⟨n, rfl⟩)) n, complete_advance_of_not rfl⟩

end Sys2Proof.Proofs
end

section
/-! Control transfer (44_control_transfer.md): the frame of a jump, when a call or a return completes or raises, and the
instructions with a condition reduced to what they do when it holds and when it does not. -/

namespace Sys2Proof.Machine

open Sys2Proof.Claims

/-! ### Jumps -/

/-- A step that writes `PC` alone: the frame that the jumps and the transfers not taken share. -/
theorem complete_jumpTo (op : Byte) (s : State) (target : Word) :
    ∃ t, complete op s (.ok (jumpTo target s)) = .next t ∧ t.pc = target ∧ SameRegsBut [] s t ∧ t.sp = s.sp ∧
      t.flags = s.flags ∧ SameMem s t ∧ KeepsControl s t :=
  ⟨_, rfl, by simp, fun q _ => by simp, by simp, by simp, fun x => by simp,
    ((Commits.refl (.jp_nn target) s).jumpTo target).keepsControl⟩

/-- The same step to the sequential successor, where that fits. -/
theorem complete_advance_of_fits_frame (op : Byte) {len : Nat} {s : State} (hfit : s.pc.toNat + len ≤ 0xFFFF) :
    ∃ t, complete op s (advance len s) = .next t ∧ t.pc.toNat = s.pc.toNat + len ∧ SameRegsBut [] s t ∧ t.sp = s.sp ∧
      t.flags = s.flags ∧ SameMem s t ∧ KeepsControl s t := by
  obtain ⟨t, ht, hpc, hframe⟩ := complete_jumpTo op s (s.pc + BitVec.ofNat 16 len)
  rw [advance_of_fits hfit]
  exact ⟨t, ht, by rw [hpc, word_add_toNat hfit], hframe⟩

theorem exec_conditional_jump {i : Instr} {nn : Word} {s : State} {taken : Bool}
    (h : i = .jpZ_nn nn ∧ taken = s.flags.zero ∨ i = .jpNZ_nn nn ∧ taken = !s.flags.zero) :
    exec i s = complete i.opcode s (jumpIf taken nn s) := by
  rcases h with ⟨rfl, rfl⟩ | ⟨rfl, rfl⟩
  · exact exec_jpZ_nn nn s
  · exact exec_jpNZ_nn nn s

/-! ### Calls -/

section
variable {s t u : State} {x : Int}

theorem callTo_of_not (nn : Word) (h : 0xFFFF < s.pc.toNat + 3) : callTo nn s = .error (s.pc.toNat + 3) := by
  rw [callTo, if_pos h]

/-- With a return address that fits, a call is its push and then the jump. -/
theorem callTo_of_fits (nn : Word) (h : s.pc.toNat + 3 ≤ 0xFFFF) :
    callTo nn s = (push (s.pc + 3) s).map (jumpTo nn) := by
  rw [callTo, if_neg (by omega)]
  cases push (s.pc + 3) s <;> rfl

theorem callTo_of_pushed (nn : Word) (hfit : s.pc.toNat + 3 ≤ 0xFFFF) (h : push (s.pc + 3) s = .ok t) :
    callTo nn s = .ok (jumpTo nn t) := by
  rw [callTo_of_fits nn hfit, h]
  rfl

theorem exec_call_of_pushed (nn : Word) (hfit : s.pc.toNat + 3 ≤ 0xFFFF) (h : push (s.pc + 3) s = .ok t) :
    exec (.call_nn nn) s = .next (retire (jumpTo nn t)) := by
  rw [exec_call_nn, callTo_of_pushed nn hfit h]
  rfl

theorem exec_call_of_push_error (nn : Word) (hfit : s.pc.toNat + 3 ≤ 0xFFFF) (h : push (s.pc + 3) s = .error x) :
    exec (.call_nn nn) s = .next (faultedAt x 0xCD s) := by
  rw [exec_call_nn, callTo_of_fits nn hfit, h]
  rfl

theorem callTo_keepsControl {nn : Word} (h : callTo nn s = .ok u) : KeepsControl s (retire u) := by
  have hrule := FollowsRule.callTo nn s
  rw [h] at hrule
  exact Commits.keepsControl hrule

theorem reg_withStack (s : State) (m : Memory) (p : Word) (q : Reg) : { s with mem := m, sp := p }.reg q = s.reg q := by
  cases q <;> rfl

theorem push_reg {v : Word} (h : push v s = .ok t) (q : Reg) : t.reg q = s.reg q := by
  rw [push_frame h, reg_withStack]

theorem push_flags {v : Word} (h : push v s = .ok t) : t.flags = s.flags := by
  rw [push_frame h]

/-! ### Returns -/

theorem returnFromCall_of_popped {v : Word} (h : pop s = .ok (v, t)) : returnFromCall s = .ok (jumpTo v t) := by
  rw [returnFromCall, h]

theorem returnFromCall_of_pop_error (h : pop s = .error x) : returnFromCall s = .error x := by
  rw [returnFromCall, h]

theorem returnFromCall_keepsControl (h : returnFromCall s = .ok u) : KeepsControl s (retire u) := by
  have hrule : FollowsRule .ret s (returnFromCall s) := .returnFromCall (.inl rfl)
  rw [h] at hrule
  exact Commits.keepsControl hrule

theorem exec_return_taken {i : Instr}
    (h : i = .ret ∨ (i = .retZ ∧ s.flags.zero = true) ∨ (i = .retNZ ∧ s.flags.zero = false)) :
    exec i s = complete i.opcode s (returnFromCall s) := by
  rcases h with rfl | ⟨rfl, hz⟩ | ⟨rfl, hz⟩
  · exact exec_ret s
  · rw [exec_retZ, condZ, hz]
    rfl
  · rw [exec_retNZ, condNZ, hz]
    rfl

theorem exec_return_notTaken {i : Instr}
    (h : (i = .retZ ∧ s.flags.zero = false) ∨ (i = .retNZ ∧ s.flags.zero = true)) :
    exec i s = complete i.opcode s (advance 1 s) := by
  rcases h with ⟨rfl, hz⟩ | ⟨rfl, hz⟩
  · rw [exec_retZ, condZ, hz]
    rfl
  · rw [exec_retNZ, condNZ, hz]
    rfl

end

end Sys2Proof.Machine

namespace Sys2Proof.Proofs

open Sys2Proof.Machine Sys2Proof.Claims

/-- Settles O32: `PC` is all that a jump writes. -/
theorem jumpAlways : Obligations.JumpAlways := fun nn s => complete_jumpTo (Instr.opcode (.jp_nn nn)) s nn

/-- Settles O33: taken, the frame of a jump; not taken, that of the successor three bytes on, or its fault. -/
theorem jumpConditional : Obligations.JumpConditional := by
  intro nn s i taken hi
  rw [exec_conditional_jump hi]
  cases taken with
  | true =>
    obtain ⟨t, ht, hpc, hframe⟩ := complete_jumpTo i.opcode s nn
    exact ⟨fun _ => ⟨t, ht, fun _ => hpc, nofun, hframe⟩, nofun⟩
  | false =>
    refine ⟨fun hfit => ?_, fun _ => complete_advance_of_not rfl⟩
    obtain ⟨t, ht, hpc, hframe⟩ := complete_advance_of_fits_frame i.opcode (hfit.resolve_left nofun)
    exact ⟨t, ht, nofun, fun _ => hpc, hframe⟩

/-- Settles O34: with a return address that fits, a call completes or raises as its push does, and the rules for a
completed push say what the stack holds. -/
theorem callSubroutine : Obligations.CallSubroutine := by
  intro nn s
  refine ⟨fun hfit hroom hin => ?completes, fun hover => ?successor,
    fun hfit hout => exec_call_of_push_error nn hfit (push_of_sp_outside _ hout),
    fun hfit hin hlow => exec_call_of_push_error nn hfit (push_of_sp_bottom _ hin hlow)⟩
  case completes =>
    obtain ⟨t, hpush⟩ := push_completes (s.pc + 3) hin hroom
    have hret : (s.pc + 3).toNat = s.pc.toNat + 3 := word_add_toNat (k := 3) hfit
    refine ⟨_, exec_call_of_pushed nn hfit hpush, by simp, ?sp, ?low, ?high, fun x hlow hhigh => ?other,
      fun q _ => ?regs, ?flags, callTo_keepsControl (callTo_of_pushed nn hfit hpush)⟩
    case sp =>
      rw [retire_sp, jumpTo_sp]
      exact Nat.eq_sub_of_add_eq (push_sp_toNat hpush)
    case low => rw [retire_mem, jumpTo_mem, push_read_low hpush, loByte_toNat, hret]
    case high => rw [retire_mem, jumpTo_mem, push_read_high hpush, hiByte_toNat, hret]
    case other => rw [retire_mem, jumpTo_mem, push_read_other hpush hlow hhigh]
    case regs => rw [retire_reg, jumpTo_reg, push_reg hpush]
    case flags => rw [retire_flags, jumpTo_flags, push_flags hpush]
  case successor =>
    rw [exec_call_nn, callTo_of_not nn hover]
    rfl

/-- Settles O35: a return that is taken completes or raises as its pop does; memory's range keeps `SP` from wrapping. -/
theorem returnTaken : Obligations.ReturnTaken := by
  intro s i hm hi
  rw [exec_return_taken hi]
  refine ⟨fun hin => ?completes, fun hout => ?high, fun hin hout => ?low⟩
  case completes =>
    have hreturn := returnFromCall_of_popped (pop_of_inMemory hin)
    have hsp : (s.sp + 2).toNat = s.sp.toNat + 2 := word_add_toNat (k := 2) (by omega)
    rw [hreturn]
    refine ⟨_, rfl, by simp, ?sp, fun q _ => ?regs, by simp, fun x => by simp, returnFromCall_keepsControl hreturn⟩
    case sp => rw [retire_sp, jumpTo_sp, hsp]
    case regs => rw [retire_reg, jumpTo_reg, reg_withStack]
  case high =>
    rw [returnFromCall_of_pop_error (pop_of_high_outside hout)]
    rfl
  case low =>
    rw [returnFromCall_of_pop_error (pop_of_low_outside hin hout)]
    rfl

/-- Settles O36: a return that is not taken goes on in sequence, one byte on, and looks at nothing else. -/
theorem returnNotTaken : Obligations.ReturnNotTaken := by
  intro s i hi
  rw [exec_return_notTaken hi]
  refine ⟨fun hfit => ?_, complete_advance_of_not rfl⟩
  obtain ⟨t, ht, hpc, hregs, hsp, hrest⟩ := complete_advance_of_fits_frame i.opcode hfit
  exact ⟨t, ht, hpc, hsp, hregs, hrest⟩

/-- Settles O37: the call pushed its return address, and the return pops that value back, in whatever state has the
call's `SP` and its two stack bytes. -/
theorem callThenReturn : Obligations.CallThenReturn := by
  intro nn s t back _ hfit hroom hin hcall hcfg hsp hlow hhigh
  obtain ⟨pushed, hpush⟩ := push_completes (s.pc + 3) hin hroom
  obtain rfl : retire (jumpTo nn pushed) = t :=
    Host.Outcome.next.inj ((exec_call_of_pushed nn hfit hpush).symm.trans hcall)
  rw [retire_cfg, jumpTo_cfg] at hcfg
  rw [retire_sp, jumpTo_sp] at hsp
  rw [retire_mem, jumpTo_mem] at hlow hhigh
  have hsize : back.cfg.memSize = s.cfg.memSize := by rw [hcfg, push_frame hpush]
  have hpop : pop back = .ok (s.pc + 3, { back with sp := s.sp }) := pop_of_pushed hpush hsize hsp hlow hhigh
  rw [exec_ret, returnFromCall_of_popped hpop]
  refine ⟨_, rfl, ?_, by simp, by simp⟩
  rw [retire_pc, jumpTo_pc]
  exact word_add_toNat (k := 3) hfit

end Sys2Proof.Proofs
end

section
/-! `NOP`, `HALT` and the unknown opcode (45_halt_nop_unknown.md): when the fetch stage answers an unknown opcode, and
the frame of its step, which is that of a move to the successor made after the event is emitted. -/

namespace Sys2Proof.Machine

open Sys2Proof.Claims

/-! ### The unknown opcode -/

section
variable {op : Byte} {s : State}

/-- A byte at `PC` in no row of the table is all the fetch stage reads (R187). -/
theorem fetch_of_decodeOp_none (hin : s.pc.toNat < s.cfg.memSize) (hop : decodeOp (s.mem.read s.pc.toNat) = none) :
    fetch s = .unknown (s.mem.read s.pc.toNat) := by
  have hread : memRead s.pc.toNat s = .ok (s.mem.read s.pc.toNat) :=
    memRead_of_inMemory ⟨Int.natCast_nonneg _, Int.ofNat_lt.2 hin⟩
  simp only [fetch, hread, hop]

theorem step_of_decodeOp_none (hready : Ready s) (hin : s.pc.toNat < s.cfg.memSize)
    (hop : decodeOp (s.mem.read s.pc.toNat) = none) : step s = execUnknown (s.mem.read s.pc.toNat) s := by
  obtain ⟨hw, hr⟩ := hready
  rw [step_of_running hw hr, fetch_of_decodeOp_none hin hop]

/-- An event emitted before a step is counted stands under the events the step emits. -/
theorem counted_of_emit {evs : List Event} {ev : Event} {t : State} (h : Counted evs (emit ev s) t) :
    Counted (evs ++ [ev]) s t := by
  rw [Counted, List.append_assoc]
  exact h

/-- Skipping a byte that fits: nothing is written but `PC`, and the step is counted with the one event (R187, R202). -/
theorem execUnknown_of_fits (op : Byte) (hfit : s.pc.toNat + 1 ≤ 0xFFFF) :
    ∃ t, execUnknown op s = .next t ∧ t.pc.toNat = s.pc.toNat + 1 ∧ SameRegsBut [] s t ∧ t.sp = s.sp ∧
      t.flags = s.flags ∧ SameMem s t ∧ t.run = s.run ∧ t.fault = s.fault ∧ t.cfg = s.cfg ∧
      Counted [.unknownOpcode op s.pc] s t := by
  have hfit' : (emit (.unknownOpcode op s.pc) s).pc.toNat + 1 ≤ 0xFFFF := hfit
  obtain ⟨t, ht, hpc, hregs, hsp, hflags, hmem, hrun, hfault, hcfg, hcount⟩ :=
    complete_advance_of_fits_frame op hfit'
  have hexec : execUnknown op s = .next t := by
    rw [execUnknown, complete_advance_of_fits hfit', ← ht, complete_advance_of_fits hfit']
  have hregs' : SameRegsBut [] s t := fun q hq => (hregs q hq).trans (emit_reg _ s q)
  exact ⟨t, hexec, hpc, hregs', hsp, hflags, hmem, hrun, hfault, hcfg, counted_of_emit hcount⟩

/-- At the end of the address range the fault wins, and the event is lost with the writes (60_exceptions.md R226). -/
theorem execUnknown_of_not (op : Byte) (hover : 0xFFFF < s.pc.toNat + 1) :
    execUnknown op s = .next (faultedAt (s.pc.toNat + 1) op s) :=
  complete_advance_of_not (emit_pc _ s) hover

end

end Sys2Proof.Machine

namespace Sys2Proof.Proofs

open Sys2Proof.Machine Sys2Proof.Claims

/-- Settles O8: the fetch stage answers the unknown opcode, which is skipped where its successor fits and faults at
`0xFFFF`. -/
theorem unknownOpcodeIsSkipped : Obligations.UnknownOpcodeIsSkipped := by
  intro s hready hin hop
  rw [step_of_decodeOp_none hready hin hop]
  refine ⟨fun hbelow => ?skipped, fun htop => ?faulted⟩
  case skipped =>
    obtain ⟨_, hr⟩ := hready
    have hframe := execUnknown_of_fits (s.mem.read s.pc.toNat) (Nat.succ_le_of_lt hbelow)
    rwa [hr] at hframe
  case faulted =>
    have hfault := execUnknown_of_not (s.mem.read s.pc.toNat) (show 0xFFFF < s.pc.toNat + 1 by omega)
    rwa [show ((s.pc.toNat : Int) + 1) = 0x10000 by omega] at hfault

/-- Settles O38: the move to the successor one byte on, or its fault. -/
theorem noOperation : Obligations.NoOperation := by
  intro s
  rw [exec_nop]
  exact ⟨complete_advance_of_fits_frame _, complete_advance_of_not rfl⟩

/-- Settles O39: `HALT` has no check that can fail, and its decoding is the round trip of its one byte. -/
theorem haltStopsTheCore : Obligations.HaltStopsTheCore :=
  fun s => ⟨exec_halt s, rfl, decode_encode_append .halt []⟩

end Sys2Proof.Proofs
end

section
/-! The execution loop (46_execution_loop.md): what the fetch stage ends in, by the format of the byte at `PC` and by
which of the bytes lie inside memory (R197); how a step of a running core ends (R200, R202); and the instructions that
go on in sequence (R199). -/

namespace Sys2Proof.Machine

open Sys2Proof.Claims

/-! ### Reads from `PC` on -/

section
variable {s : State} {f : Form}

theorem memRead_ahead {k : Nat} (h : s.pc.toNat + k < s.cfg.memSize) :
    memRead (s.pc.toNat + k) s = .ok (s.mem.read (s.pc.toNat + k)) :=
  memRead_of_inMemory (by omega)

theorem memRead_ahead_of_outside {k : Nat} (h : s.cfg.memSize ≤ s.pc.toNat + k) :
    memRead (s.pc.toNat + k) s = .error (s.pc.toNat + k) :=
  memRead_of_not (by omega)

/-! ### What the fetch stage ends in -/

theorem fetch_of_pc_outside (h : s.cfg.memSize ≤ s.pc.toNat) : fetch s = .bounds s.pc.toNat 0 := by
  have hread : memRead s.pc.toNat s = .error s.pc.toNat := memRead_ahead_of_outside (k := 0) h
  simp only [fetch, hread]

/-- An opcode byte with a row in the table leaves the operand bytes of its format to be read. -/
theorem fetch_of_decodeOp_some (hin : s.pc.toNat < s.cfg.memSize) (hop : decodeOp (s.mem.read s.pc.toNat) = some f) :
    fetch s = fetchOperands (s.mem.read s.pc.toNat) f s := by
  have hread : memRead s.pc.toNat s = .ok (s.mem.read s.pc.toNat) := memRead_ahead (k := 0) hin
  simp only [fetch, hread, hop]

theorem fetchOperands_f2 (op : Byte) (mk : Byte → Instr) (h : s.pc.toNat + 1 < s.cfg.memSize) :
    fetchOperands op (.f2 mk) s = .instr (mk (s.mem.read (s.pc.toNat + 1))) := by
  have hread : memRead (s.pc.toNat + 1) s = .ok (s.mem.read (s.pc.toNat + 1)) := memRead_ahead h
  simp only [fetchOperands, hread]

theorem fetchOperands_f3 (op : Byte) (mk : Word → Instr) (h : s.pc.toNat + 2 < s.cfg.memSize) :
    fetchOperands op (.f3 mk) s =
      .instr (mk (joinBytes (s.mem.read (s.pc.toNat + 2)) (s.mem.read (s.pc.toNat + 1)))) := by
  have hlo : memRead (s.pc.toNat + 1) s = .ok (s.mem.read (s.pc.toNat + 1)) := memRead_ahead (Nat.lt_of_succ_lt h)
  have hhi : memRead (s.pc.toNat + 2) s = .ok (s.mem.read (s.pc.toNat + 2)) := memRead_ahead h
  simp only [fetchOperands, hlo, hhi]

theorem fetchOperands_of_first_outside (op : Byte) (hlen : 2 ≤ f.length) (hout : s.cfg.memSize ≤ s.pc.toNat + 1) :
    fetchOperands op f s = .bounds (s.pc.toNat + 1) op := by
  have hread : memRead (s.pc.toNat + 1) s = .error (s.pc.toNat + 1) := memRead_ahead_of_outside hout
  cases f with
  | f1 i => exact absurd hlen (by simp [Form.length])
  | f2 mk => simp only [fetchOperands, hread]
  | f3 mk => simp only [fetchOperands, hread]

theorem fetchOperands_of_second_outside (op : Byte) (hlen : f.length = 3) (hin : s.pc.toNat + 1 < s.cfg.memSize)
    (hout : s.cfg.memSize ≤ s.pc.toNat + 2) : fetchOperands op f s = .bounds (s.pc.toNat + 2) op := by
  have hlo : memRead (s.pc.toNat + 1) s = .ok (s.mem.read (s.pc.toNat + 1)) := memRead_ahead hin
  have hhi : memRead (s.pc.toNat + 2) s = .error (s.pc.toNat + 2) := memRead_ahead_of_outside hout
  cases f with
  | f1 i => cases hlen
  | f2 mk => cases hlen
  | f3 mk => simp only [fetchOperands, hlo, hhi]

end

/-- The fetch stage agrees with the decoder on the bytes at `PC`, as far as the instruction lies inside memory. -/
theorem fetch_of_decode {s : State} {i : Instr} {rest : List Byte}
    (h : decode [s.mem.read s.pc.toNat, s.mem.read (s.pc.toNat + 1), s.mem.read (s.pc.toNat + 2)] = .instr i rest)
    (hin : s.pc.toNat + i.length ≤ s.cfg.memSize) : fetch s = .instr i := by
  have hdec := decode_eq_instr h
  have hlen : 3 = i.length + rest.length :=
    (congrArg List.length hdec.eq_encode_append).trans List.length_append
  cases hdec with
  | f1 _ hop =>
    simp only [List.length_cons, List.length_nil] at hlen
    rw [fetch_of_decodeOp_some (by omega) hop]
    rfl
  | f2 _ _ hop =>
    rw [List.length_singleton] at hlen
    rw [fetch_of_decodeOp_some (by omega) hop, fetchOperands_f2 _ _ (by omega)]
  | f3 _ _ _ hop =>
    rw [List.length_nil] at hlen
    rw [fetch_of_decodeOp_some (by omega) hop, fetchOperands_f3 _ _ (by omega)]

/-! ### The step after the fetch stage -/

section
variable {s : State}

theorem step_of_fetch_bounds {x : Int} {op : Byte} (hready : Ready s) (h : fetch s = .bounds x op) :
    step s = .next (faultedAt x op s) := by
  obtain ⟨hw, hr⟩ := hready
  rw [step_of_running hw hr, h]
  rfl

theorem step_of_fetch_instr {i : Instr} (hready : Ready s) (h : fetch s = .instr i) : step s = exec i s := by
  obtain ⟨hw, hr⟩ := hready
  rw [step_of_running hw hr, h]

end

/-! ### How a step of a running core ends -/

/-- `fault_op`: the opcode byte at `PC`, or 0 when `PC` itself lies outside memory (10_state.md R32). -/
def faultOpcode (s : State) : Byte := if s.pc.toNat < s.cfg.memSize then s.mem.read s.pc.toNat else 0x00

theorem faultOpcode_of_inside {s : State} (h : s.pc.toNat < s.cfg.memSize) : faultOpcode s = s.mem.read s.pc.toNat :=
  if_pos h

theorem faultOpcode_of_outside {s : State} (h : s.cfg.memSize ≤ s.pc.toNat) : faultOpcode s = 0x00 :=
  if_neg (Nat.not_lt.2 h)

/-- The ends of a step of a running core, whichever stage decides: a fault at an address outside memory, `HALT`, an
unknown opcode reported and skipped, or an instruction's writes committed. -/
inductive RunningResult (s : State) : State → Prop where
  | faulted {x : Int} : x < 0 ∨ s.cfg.memSize ≤ x → RunningResult s (faultedAt x (faultOpcode s) s)
  | halted : fetch s = .instr .halt → RunningResult s (emit .renderYield { s with run := .halted })
  | skipped {op : Byte} : fetch s = .unknown op →
    RunningResult s (retire (jumpTo (s.pc + 1) (emit (.unknownOpcode op s.pc) s)))
  | committed {i : Instr} {u : State} : fetch s = .instr i → Commits i s u → RunningResult s (retire u)

/-- A byte skipped is counted with its own event, which comes before the yield (R202, R226). -/
theorem counted_skipped (op : Byte) (s : State) :
    Counted [.unknownOpcode op s.pc] s (retire (jumpTo (s.pc + 1) (emit (.unknownOpcode op s.pc) s))) :=
  counted_of_emit (evs := []) (counted_retire (jumpTo (s.pc + 1) (emit (.unknownOpcode op s.pc) s)))

section
variable {s t : State}

/-- No instruction reports an address inside memory: a successor that does not fit `PC` is beyond any memory. -/
theorem RaisedAddress.outside_memory {i : Instr} {x : Int} (h : RaisedAddress i s x) (hm : s.cfg.memSize ≤ 65536) :
    x < 0 ∨ s.cfg.memSize ≤ x := by
  cases h with
  | successor hover => exact .inr (by omega)
  | outside hout _ => exact .inr hout
  | stackBottom => exact .inl (by decide)

theorem RunningResult.of_fetch_bounds {x : Int} {op : Byte} (hf : fetch s = .bounds x op) :
    RunningResult s (takeBoundsFault x op s) := by
  obtain ⟨hout, ⟨rfl, rfl⟩ | ⟨hin, rfl, -, -⟩⟩ := fetch_eq_bounds hf
  · rw [← faultOpcode_of_outside (s := s) (by omega)]
    exact .faulted (.inr hout)
  · rw [← faultOpcode_of_inside hin]
    exact .faulted (.inr hout)

theorem RunningResult.of_unknownResult {op : Byte} (hf : fetch s = .unknown op) (hm : s.cfg.memSize ≤ 65536)
    (hres : UnknownResult op s t) : RunningResult s t := by
  cases hres with
  | skipped => exact .skipped hf
  | faulted hover =>
    obtain ⟨hin, rfl, -⟩ := fetch_eq_unknown hf
    rw [← faultOpcode_of_inside hin]
    exact .faulted (.inr (by omega))

theorem RunningResult.of_execResult {i : Instr} (hf : fetch s = .instr i) (hm : s.cfg.memSize ≤ 65536)
    (hres : ExecResult i s t) : RunningResult s t := by
  cases hres with
  | halted hi => exact .halted (hi ▸ hf)
  | faulted hx =>
    obtain ⟨hop, hfit⟩ := fetch_eq_instr hf
    have hlen : 0 < i.length := Nat.succ_pos _
    rw [← hop, ← faultOpcode_of_inside (by omega)]
    exact .faulted (hx.outside_memory hm)
  | committed hc => exact .committed hf hc

theorem running_step_eq_next (hready : Ready s) (h : step s = .next t) : RunningResult s t := by
  obtain ⟨hw, hr⟩ := hready
  have hm := ((Config.wellFormed_iff _).1 hw).1.2
  cases step_eq_next hw h with
  | stopped hstop => exact absurd hr hstop
  | fetchFault hf => exact .of_fetch_bounds hf
  | unknown hf hres => exact .of_unknownResult hf hm hres
  | executed hf hres => exact .of_execResult hf hm hres

end

/-! ### Going on in sequence, instruction by instruction -/

/-- A pseudocode that goes on in sequence: it raises before the successor is computed, or ends in the successor with
`PC` still unwritten (R199). -/
inductive GoesOn (i : Instr) (s : State) : Except Int State → Prop where
  | raised (x : Int) : GoesOn i s (.error x)
  | advanced {u : State} : u.pc = s.pc → GoesOn i s (advance i.length u)

section
variable {i : Instr} {s t : State} {r : Except Int State}

theorem GoesOn.advance {u : State} {len : Nat} (hpc : u.pc = s.pc) (hlen : i.length = len) :
    GoesOn i s (advance len u) := hlen ▸ .advanced hpc

theorem GoesOn.loadFromHL (r : Reg) (hlen : i.length = 1) : GoesOn i s (loadFromHL r s) := by
  unfold Machine.loadFromHL
  split
  · exact .raised _
  · exact .advance (State.setReg_pc s r _) hlen

theorem GoesOn.storeToHL (r : Reg) (hlen : i.length = 1) : GoesOn i s (storeToHL r s) := by
  unfold Machine.storeToHL
  split
  · exact .raised _
  · next u hwrite => exact .advance (by rw [memWrite_frame hwrite]) hlen

theorem GoesOn.jumpIf {taken : Bool} (nn : Word) (h : taken = false) (hlen : i.length = 3) :
    GoesOn i s (jumpIf taken nn s) :=
  h ▸ .advance rfl hlen

theorem GoesOn.returnIf {taken : Bool} (h : taken = false) (hlen : i.length = 1) : GoesOn i s (returnIf taken s) :=
  h ▸ .advance rfl hlen

/-- A conditional instruction that does not leave the sequence finds its condition false. -/
theorem condZ_of_not_leavesSequence (h : ¬LeavesSequence i s) (hi : i = .retZ ∨ ∃ nn, i = .jpZ_nn nn) :
    condZ s = false :=
  Bool.eq_false_iff.2 fun hz => h (.inr (.inr (.inr (.inr (.inl ⟨hz, hi⟩)))))

theorem condNZ_of_not_leavesSequence (h : ¬LeavesSequence i s) (hi : i = .retNZ ∨ ∃ nn, i = .jpNZ_nn nn) :
    condNZ s = false :=
  Bool.eq_false_iff.2 fun hnz => h (.inr (.inr (.inr (.inr (.inr ⟨Bool.eq_false_of_not_eq_true' hnz, hi⟩)))))

/-- Every instruction that does not leave the sequence has such a pseudocode. -/
theorem exec_goesOn (h : ¬LeavesSequence i s) : ∃ op r, exec i s = complete op s r ∧ GoesOn i s r := by
  induction i using Instr.form_cases with
  | nop => exact ⟨_, _, exec_nop s, .advance rfl rfl⟩
  | ldImm r n => exact ⟨_, _, exec_ldImm r n s, .advance (by simp) (by simp)⟩
  | ldDE nn => exact ⟨_, _, exec_ldDE_nn nn s, .advance rfl rfl⟩
  | ldHL nn => exact ⟨_, _, exec_ldHL_nn nn s, .advance rfl rfl⟩
  | ldReg dst src => exact ⟨_, _, exec_ldReg dst src s, .advance (by simp) (by simp)⟩
  | ldFromMem r => exact ⟨_, _, exec_ldFromMem r s, .loadFromHL r (by simp)⟩
  | ldToMem r => exact ⟨_, _, exec_ldToMem r s, .storeToHL r (by simp)⟩
  | addA r => exact ⟨_, _, exec_addA r s, .advance rfl (by simp)⟩
  | cpReg r => exact ⟨_, _, exec_cpReg r s, .advance rfl (by simp)⟩
  | cp_n n => exact ⟨_, _, exec_cp_n n s, .advance rfl rfl⟩
  | jpZ nn => exact ⟨_, _, exec_jpZ_nn nn s, .jumpIf nn (condZ_of_not_leavesSequence h (.inr ⟨nn, rfl⟩)) rfl⟩
  | jpNZ nn => exact ⟨_, _, exec_jpNZ_nn nn s, .jumpIf nn (condNZ_of_not_leavesSequence h (.inr ⟨nn, rfl⟩)) rfl⟩
  | retZ => exact ⟨_, _, exec_retZ s, .returnIf (condZ_of_not_leavesSequence h (.inl rfl)) rfl⟩
  | retNZ => exact ⟨_, _, exec_retNZ s, .returnIf (condNZ_of_not_leavesSequence h (.inl rfl)) rfl⟩
  | halt | jp nn | call nn | ret => exact absurd (by simp [LeavesSequence]) h

/-- A step in sequence faults or ends at `PC + len`, and faults when that does not fit 16 bits. -/
theorem GoesOn.complete {op : Byte} (h : GoesOn i s r) (ht : complete op s r = .next t) :
    (0xFFFF < s.pc.toNat + i.length → t.run = .faulted) ∧
      (t.run = .running → t.pc.toNat = s.pc.toNat + i.length) := by
  cases h with
  | raised x =>
    cases ht
    exact ⟨fun _ => rfl, nofun⟩
  | @advanced u hpc =>
    by_cases hfit : s.pc.toNat + i.length ≤ 0xFFFF
    · rw [← hpc] at hfit ⊢
      rw [complete_advance_of_fits hfit] at ht
      cases ht
      exact ⟨fun hover => absurd hfit (Nat.not_le.2 hover), fun _ => proceed_pc_toNat hfit⟩
    · rw [complete_advance_of_not hpc (Nat.not_le.1 hfit)] at ht
      cases ht
      exact ⟨fun _ => rfl, nofun⟩

end

end Sys2Proof.Machine

namespace Sys2Proof.Proofs

open Sys2Proof.Machine Sys2Proof.Claims

/-- Settles O6: the fetch stage answers the instruction the bytes decode to. -/
theorem stepRunsDecodedInstruction : Obligations.StepRunsDecodedInstruction :=
  fun _ _ _ hready hdec hin => step_of_fetch_instr hready (fetch_of_decode hdec hin)

/-- Settles O7: the first byte the fetch stage finds outside memory is the one reported. -/
theorem stepFetchFaults : Obligations.StepFetchFaults := by
  intro s hready
  refine ⟨fun hout => step_of_fetch_bounds hready (fetch_of_pc_outside hout), fun f hin hop => ?_⟩
  have hfetch := fetch_of_decodeOp_some hin hop
  refine ⟨fun hlen hout => ?first, fun hlen hin1 hout => ?second⟩
  case first => exact step_of_fetch_bounds hready (hfetch.trans (fetchOperands_of_first_outside _ hlen hout))
  case second => exact step_of_fetch_bounds hready (hfetch.trans (fetchOperands_of_second_outside _ hlen hin1 hout))

/-- Settles O11: each of the ends of a step is a next state. -/
theorem everyStepAnswersNext : Obligations.EveryStepAnswersNext := by
  intro s hw
  obtain ⟨t, ht, -⟩ := step_result hw
  exact ⟨t, ht⟩

/-- Settles O43: the fetched instruction's pseudocode raises or ends in the checked successor. -/
theorem sequentialSuccessor : Obligations.SequentialSuccessor := by
  intro s t i hready hf hseq hstep
  rw [step_of_fetch_instr hready hf] at hstep
  obtain ⟨op, r, hexec, hgoes⟩ := exec_goesOn hseq
  exact hgoes.complete (hexec.symm.trans hstep)

/-- Settles O45: only a fault ends a running core's step in `Faulted`, and its address lies outside memory. -/
theorem faultsArePrecise : Obligations.FaultsArePrecise := by
  intro s t hready hstep hfaulted
  have hr := hready.2
  cases running_step_eq_next hready hstep with
  | faulted hx => exact ⟨_, hx, rfl⟩
  | halted _ => cases hfaulted
  | skipped _ => simp [hr] at hfaulted
  | committed _ hc => simp [hc.run, hr] at hfaulted

/-- Settles O46: each end of a running core's step has its own run state, and with it its own counting. -/
theorem yieldCadence : Obligations.YieldCadence := by
  intro s t hready hstep
  have hr := hready.2
  cases running_step_eq_next hready hstep with
  | faulted _ => exact ⟨fun _ => ⟨rfl, rfl⟩, nofun, nofun⟩
  | halted _ => exact ⟨nofun, fun _ => ⟨rfl, rfl⟩, nofun⟩
  | @skipped op hf =>
    rw [retire_run, jumpTo_run, emit_run, hr]
    refine ⟨nofun, nofun, fun _ => ⟨fun i hinstr => ?_, fun op' hunknown => ?_⟩⟩
    · cases hf.symm.trans hinstr
    · cases hf.symm.trans hunknown
      exact counted_skipped op s
  | committed hf hc =>
    obtain ⟨hrun, -, -, hcount⟩ := hc.keepsControl
    rw [hr] at hrun
    rw [hrun]
    refine ⟨nofun, nofun, fun _ => ⟨fun _ _ => hcount, fun op hunknown => ?_⟩⟩
    cases hf.symm.trans hunknown

end Sys2Proof.Proofs
end

section
/-! The ranges of the parameters (00_scope.md R7, 70_reset_and_hazards.md R254): a step outside them is refused. -/

namespace Sys2Proof.Machine

/-- The check stands before every other part of the step, so neither the run state nor memory matters. -/
theorem step_of_not_wellFormed {s : State} (hw : ¬ s.cfg.wellFormed = true) : step s = .refused .configOutOfRange :=
  if_neg hw

end Sys2Proof.Machine

namespace Sys2Proof.Proofs

open Sys2Proof.Machine

/-- Settles O10: each of the three values breaks one of the bounds of `Config.wellFormed`. -/
theorem badConfigurationRefused : Obligations.BadConfigurationRefused := by
  intro s hbad
  refine step_of_not_wellFormed fun hw => ?_
  obtain ⟨⟨hsizePos, hsizeMax⟩, hperiod⟩ := (Config.wellFormed_iff s.cfg).1 hw
  obtain hzero | hlarge | hnever := hbad
  · exact Nat.ne_of_gt hsizePos hzero
  · exact Nat.not_lt.2 hsizeMax hlarge
  · exact Nat.ne_of_gt hperiod hnever

end Sys2Proof.Proofs
end
